-- ==== Sys2Proof/Word.lean ====
section
/-! DEFINITION. The word types of the block (00_scope.md R6, R8): widths only, no behaviour. -/
namespace Sys2Proof

/-- A register, a bus word, a command word (10_state.md section 2, 30_encoding.md R100). -/
abbrev Word := BitVec 32

/-- Half a word: a sample component, a 16-bit register field (00_scope.md R6). -/
abbrev Half := BitVec 16

/-- One byte lane of a word (20_memory.md R67). -/
abbrev Byte := BitVec 8

/-- A bank number, 0 or 1 (30_encoding.md R102). -/
abbrev Bank := BitVec 1

/-- A byte offset of the 64 KiB aperture: `addr[15:0]` (20_memory.md R60, R63). -/
abbrev Offset := BitVec 16

end Sys2Proof
end

