-- ==== Sys2Proof/Syntax.lean ====
section
/-! DEFINITION. The seven commands (30_encoding.md R103), the command errors, the register names, and the host-script
notation (30_encoding.md R107 to R109). -/
namespace Sys2Proof

/-- The commands: one constructor per row of the opcode table (30_encoding.md R103). Only `PROCESS` has operands, the
sample bank the frame reads and the result bank it writes, each one bit (R102). -/
inductive Instr
  | nop
  | configure
  | process (inBank outBank : Bank)
  | abort
  | clipClr
  | clipDec
  | softReset
deriving DecidableEq, Repr

/-- Why a command is rejected (60_exceptions.md R221). -/
inductive CmdError
  /-- code 1: `w[7:0] ≥ 0x07` -/
  | illegalOpcode
  /-- code 2: a legal opcode with a reserved bit set -/
  | reservedBits
  /-- code 3: `CONFIGURE` or `PROCESS` while busy -/
  | busy
  /-- code 4: `CONFIGURE` while `CTRL.WINSEL = 3` -/
  | badWindow
deriving DecidableEq, Repr

/-- The sixteen registers (10_state.md section 2), in the order of their offsets. -/
inductive Reg
  | id | version | ctrl | dispWidth | clipThresh | cmd | status | activeCfg
  | irqStatus | irqEnable | maxI | maxQ | clipCount | frameCount | errInfo | errCmd
deriving DecidableEq, Repr

/-- `<off>` of a host script (30_encoding.md R107): a byte offset, a register name, or a RAM word. -/
inductive Place
  | off (a : Nat)
  | reg (r : Reg)
  | sram (b n : Nat)
  | rram (b n : Nat)
deriving DecidableEq, Repr

/-- A statement of a host script: the three transactions (30_encoding.md R107), the command mnemonics (R108) and the
further pseudo-statements (R109). An item `(w, r)` of `loadF` is `r` copies of `w`. `blank` is an empty line or a comment. -/
inductive Stmt
  | wr (p : Place) (v : Word)
  | rd (p : Place) (name : String)
  | poll (p : Place) (mask val : Word)
  | nop
  | configure
  | process (inBank outBank : Nat)
  | abort
  | clipClr
  | clipDec
  | softReset
  | waitIdle
  | waitDone
  | ack (bits : Word)
  | loadF (b : Nat) (items : List (Word × Nat))
  | blank
deriving DecidableEq, Repr

end Sys2Proof
end

