-- ==== Sys2Proof/Decode.lean ====
section
/-! DEFINITION. The command decoder, total over all 2^32 words (30_encoding.md R104), the encoder (R101 to R103), and the
opcode map as a table (R103). -/
namespace Sys2Proof

/-- What a command word decodes to: a command, or an illegal word with the code it is rejected with (30_encoding.md R104). -/
inductive Decoded
  | command (i : Instr)
  | illegal (e : CmdError)
deriving DecidableEq, Repr

/-- `OP = w[7:0]` (30_encoding.md R100). -/
def opField (w : Word) : Nat := (w.extractLsb' 0 8).toNat

/-- `IN = w[8]` (30_encoding.md R102). -/
def inField (w : Word) : Bank := w.extractLsb' 8 1

/-- `OUT = w[9]` (30_encoding.md R102). -/
def outField (w : Word) : Bank := w.extractLsb' 9 1

/-- Format `C0`: a reserved bit of `w[31:8]` is set (30_encoding.md R101). -/
def reservedC0 (w : Word) : Bool := w.extractLsb' 8 24 != 0

/-- Format `CP`: a reserved bit of `w[31:10]` is set (30_encoding.md R101). -/
def reservedCP (w : Word) : Bool := w.extractLsb' 10 22 != 0

/-- The commands of format `C0` by opcode (30_encoding.md R103). -/
def commandC0 : Nat → Decoded
  | 0x00 => .command .nop
  | 0x01 => .command .configure
  | 0x03 => .command .abort
  | 0x04 => .command .clipClr
  | 0x05 => .command .clipDec
  | 0x06 => .command .softReset
  | _ => .illegal .illegalOpcode

/-- The decoder (30_encoding.md R104): the opcode is checked before the reserved bits. -/
def decode (w : Word) : Decoded :=
  if 0x07 ≤ opField w then .illegal .illegalOpcode
  else if opField w = 0x02 then
    if reservedCP w then .illegal .reservedBits else .command (.process (inField w) (outField w))
  else if reservedC0 w then .illegal .reservedBits
  else commandC0 (opField w)

/-- The word of a command (30_encoding.md R101, R103): every reserved bit is 0. -/
def encode : Instr → Word
  | .nop => 0x00000000
  | .configure => 0x00000001
  | .process inBank outBank => 0x00000002 ||| (inBank.setWidth 32 <<< 8) ||| (outBank.setWidth 32 <<< 9)
  | .abort => 0x00000003
  | .clipClr => 0x00000004
  | .clipDec => 0x00000005
  | .softReset => 0x00000006

/-- A row of the opcode map (30_encoding.md R103): "A word `w` selects a row when `(w & mask) = match`". -/
structure OpRow where
  mnemonic : String
  mask : Word
  word : Word
deriving DecidableEq, Repr

/-- The row a word selects. -/
def OpRow.selects (r : OpRow) (w : Word) : Bool := w &&& r.mask == r.word

/-- The opcode map (30_encoding.md R103). -/
def opcodeMap : List OpRow :=
  [⟨"NOP", 0xFFFFFFFF, 0x00000000⟩, ⟨"CONFIGURE", 0xFFFFFFFF, 0x00000001⟩, ⟨"PROCESS", 0xFFFFFCFF, 0x00000002⟩,
   ⟨"ABORT", 0xFFFFFFFF, 0x00000003⟩, ⟨"CLIP_CLR", 0xFFFFFFFF, 0x00000004⟩, ⟨"CLIP_DEC", 0xFFFFFFFF, 0x00000005⟩,
   ⟨"SOFT_RESET", 0xFFFFFFFF, 0x00000006⟩]

/-- The mnemonic of a command (30_encoding.md R103). -/
def Instr.mnemonic : Instr → String
  | .nop => "NOP"
  | .configure => "CONFIGURE"
  | .process _ _ => "PROCESS"
  | .abort => "ABORT"
  | .clipClr => "CLIP_CLR"
  | .clipDec => "CLIP_DEC"
  | .softReset => "SOFT_RESET"

/-- The command word whose low `nbits` bits are `w`; every bit above is 0. A command is always one word
(30_encoding.md R106), so the first word of the table's numbering is the whole of it. -/
def tableWord (nbits w : Nat) : Word := BitVec.ofNat 32 (w % 2 ^ nbits)

/-- The instruction the decoder reads from a row's bits, none where it rejects them. -/
def decodeTableWord (nbits w : Nat) : Option Instr :=
  match decode (tableWord nbits w) with
  | .command i => some i
  | .illegal _ => none

end Sys2Proof
end

