-- ==== Sys2Proof/Machine/Arith.lean ====
section
/-! DEFINITION. The arithmetic of the pseudocode, on unbounded integers (00_scope.md R9), and the fields of a word (R8). -/
namespace Sys2Proof.Machine

/-- `rnd(v, s)`: division by `2^s` rounded to the nearest integer, ties toward +∞: `(v + 2^(s−1)) >> s`, where `>>` is
`floor(a / 2^s)` (00_scope.md R9). Integer division by a positive number floors. -/
def rnd (v : Int) (s : Nat) : Int := (v + 2 ^ (s - 1)) / 2 ^ s

/-- `sext_16(v)`: a 16-bit field read as signed two's complement (00_scope.md R9). -/
def sext16 (v : Half) : Int := v.toInt

/-- `trunc_32(v)`: the 32-bit two's complement encoding of `v` (00_scope.md R9). -/
def trunc32 (v : Int) : Word := BitVec.ofInt 32 v

/-- `w[15:0]` (00_scope.md R8). -/
def lowHalf (w : Word) : Half := w.extractLsb' 0 16

/-- `w[31:16]` (00_scope.md R8). -/
def highHalf (w : Word) : Half := w.extractLsb' 16 16

/-- Byte lane `i` of a word: bits `[8i+7:8i]` (20_memory.md R67). -/
def byteLane (w : Word) (i : Nat) : Byte := w.extractLsb' (8 * i) 8

/-- The word whose byte lanes 0 to 3 are `b0` to `b3` (20_memory.md R67). -/
def wordOfLanes (b0 b1 b2 b3 : Byte) : Word := b3 ++ b2 ++ b1 ++ b0

end Sys2Proof.Machine
end

