-- ==== Sys2Proof/Config.lean ====
section
/-! DEFINITION. What an implementation or a platform fixes, and the free values. The constants with a value are
those of 00_scope.md R6. The opaque ones have no value that a proof can see: a claim about them holds for every value. -/
namespace Sys2Proof

/-- `LOG2N` of the smallest FFT size, 64 (00_scope.md R6). -/
def Config.minLog2n : Nat := 6

/-- `LOG2N` of the largest FFT size, 1024 (00_scope.md R6). -/
def Config.maxLog2n : Nat := 10

/-- Words in one RAM bank (00_scope.md R6). -/
def Config.bankWords : Nat := 1024

/-- Points of the full circle that the cosine ROM divides, 1024 (20_memory.md R82). -/
def Config.circle : Nat := 1024

/-- The FFT input guard shift `G` (00_scope.md R6). -/
def Config.guardShift : Nat := 6

/-- `ID`, ASCII "FFT1" (10_state.md R21). -/
def Config.idWord : Word := 0x46465431

/-- `VERSION`, major 1, minor 0 (10_state.md R22). -/
def Config.versionWord : Word := 0x00010000

/-- `BASE_ADDR` divided by 0x10000: the platform chooses it (00_scope.md R7, 93 U12; log 11). -/
opaque Config.basePage : Nat

/-- `BASE_ADDR`, a multiple of 0x10000 (00_scope.md R7). -/
def Config.baseAddr : Nat := Config.basePage * 0x10000

/-- `IRQ_LINE`: the host interrupt input that `irq` drives (00_scope.md R7, 93 U13; log 11). -/
opaque Config.irqLine : Nat

/-- The free 32-bit values: `drawWord n` is the n-th draw (93 U2, U3, U4; log 4). -/
opaque Config.drawWord : Nat → Word

/-- A channel maximum left open by an input hazard. It keeps the bound of 10_state.md R32: 0 to 32768 (93 U4; log 6). -/
opaque Config.drawMax : Nat → Fin 32769

/-- A clip test left open by an input hazard (70_reset_and_hazards.md R270, 93 U4; log 6). -/
opaque Config.drawClip : Nat → Bool

end Sys2Proof
end

