-- ==== Sys2Proof/Machine/State.lean ====
section
/-! DEFINITION. The state of the block as plain data (10_state.md section 10), its reset value
(70_reset_and_hazards.md R260), and the reasons a step can stop. -/
namespace Sys2Proof.Machine

/-- Why the machine stops. -/
inductive Fault
  /-- `UNWRITTEN_READ` (20_memory.md R73, 93 U1): raised by a host read of a RAM word nothing has written since reset, and
  by a completion whose frame reads one. Safe: the hardware goes on with an unspecified value, the model stops. -/
  | unwrittenRead
deriving DecidableEq, Repr

/-- Why an instruction has no meaning. -/
inductive Refusal
  /-- An instruction not modelled, by its mnemonic. Raised by no arm of `exec`: every command has its meaning. Safe. -/
  | notModelled (mnemonic : String)
deriving DecidableEq, Repr

/-- The two states of the engine (10_state.md R39). -/
inductive RunState
  | idle
  | busy
deriving DecidableEq, Repr

/-- An analysis window (41_frontend.md R168). The reserved selector 3 is no window: `ACTIVE_CFG.WINSEL` never holds it
(10_state.md R29). -/
inductive WinSel
  | hann
  | hamming
  | rectangular
deriving DecidableEq, Repr

/-- The fields of `ACTIVE_CFG` (10_state.md R29). -/
structure ActiveCfg where
  log2n : BitVec 4
  winsel : WinSel
  lagfix : Bool
  revIq : Bool
  sizeAdj : Bool
deriving DecidableEq, Repr

/-- The run record (10_state.md R39). `STATUS` is a view of it (R28). -/
structure Run where
  state : RunState
  inBank : Bank
  outBank : Bank
  thresh : Half
  cfg : ActiveCfg
deriving DecidableEq, Repr

/-- The model's sticky faults `HAZARD_INPUT` and `HAZARD_OUTPUT` (70_reset_and_hazards.md R270, R271, 93 U4; log 5, 8). -/
structure Hazards where
  input : Bool
  output : Bool
deriving DecidableEq, Repr

/-- Which values of the running frame a hazard has left open (93 U4; log 6, 7): `input` leaves every output open,
`output` lists the result words the host wrote while the frame ran, without repeats. -/
structure FrameHazard where
  input : Bool
  output : List Nat
deriving DecidableEq, Repr

/-- A transaction the Host has still to issue (20_memory.md R62). `poll` is the read that a `POLL` statement repeats until
`(t & mask) = val`, one read per step (30_encoding.md R107). -/
inductive HostOp
  | read (a : Offset)
  | write (a : Offset) (v : Word)
  | poll (a : Offset) (mask val : Word)
deriving DecidableEq, Repr

/-- Who takes a step (00_scope.md R11): the Host, the Engine, or the reset input. -/
inductive Turn
  | host
  | engine
  | reset
deriving DecidableEq, Repr

/-- RAM as bytes, keyed by aperture byte offset, addresses rising. A byte that is not listed is UNWRITTEN: it has no value
(20_memory.md R73; log 13). -/
abbrev Memory := List Host.Cell

/-- The state. The fields up to `mem` are the spec's (10_state.md section 10); the rest are the model's own: the hazard
records, the counter of free values, the Host's pending transactions, the schedule, and the word the last read returned. -/
structure State where
  /-- `CTRL`, the 8 stored bits (10_state.md R23). -/
  ctrl : BitVec 8
  /-- `DISP_WIDTH.WIDTH` (10_state.md R25). -/
  dispWidth : Half
  /-- `CLIP_THRESH.THRESH` (10_state.md R26). -/
  clipThresh : Half
  /-- `ACTIVE_CFG` (10_state.md R29). -/
  activeCfg : ActiveCfg
  /-- `IRQ_STATUS[2:0]`: DONE, CMD_ERR, CLIP (10_state.md R30). -/
  irqStatus : BitVec 3
  /-- `IRQ_ENABLE[2:0]` (10_state.md R31). -/
  irqEnable : BitVec 3
  /-- `MAX_I.MAX` (10_state.md R32). -/
  maxI : Half
  /-- `MAX_Q.MAX` (10_state.md R33). -/
  maxQ : Half
  /-- `CLIP_COUNT.COUNT` (10_state.md R34). -/
  clipCount : Half
  /-- `FRAME_COUNT.COUNT` (10_state.md R35). -/
  frameCount : Word
  /-- `ERR_INFO.ERR_CODE` (10_state.md R36). -/
  errCode : BitVec 4
  /-- `ERR_CMD.WORD` (10_state.md R37). -/
  errCmd : Word
  /-- The run record (10_state.md R39). -/
  run : Run
  /-- Sample RAM and result RAM (20_memory.md R60, R71, R72). -/
  mem : Memory
  /-- MODEL: the sticky faults (log 8). -/
  hazards : Hazards
  /-- MODEL: what the running frame's hazards leave open (log 6). -/
  frameHazard : FrameHazard
  /-- MODEL: the index of the next free value (log 4). -/
  draws : Nat
  /-- MODEL: the Host's transactions still to come, in bus order (log 2). -/
  host : List HostOp
  /-- MODEL: who takes the next steps (log 1). -/
  turns : List Turn
  /-- MODEL: the word the last bus read returned (log 3). -/
  rdata : Option Word
deriving DecidableEq, Repr

/-- `ACTIVE_CFG` after reset: 1024 points, Hann, no corrections, not adjusted (10_state.md R29). -/
def ActiveCfg.reset : ActiveCfg :=
  { log2n := 10, winsel := .hann, lagfix := false, revIq := false, sizeAdj := false }

/-- The run record after reset (10_state.md R39). -/
def Run.reset : Run :=
  { state := .idle, inBank := 0, outBank := 0, thresh := 32000, cfg := ActiveCfg.reset }

/-- No value of a frame is open. -/
def FrameHazard.clear : FrameHazard := { input := false, output := [] }

/-- The machine right after the reset input (70_reset_and_hazards.md R260): the registers and the run record at the spec's
reset values, every RAM word UNWRITTEN. The model's own fields are empty (log 1 to 4, 6, 8). -/
def State.reset : State :=
  { ctrl := 0x0A
    dispWidth := 1024
    clipThresh := 32000
    activeCfg := ActiveCfg.reset
    irqStatus := 0
    irqEnable := 0
    maxI := 0
    maxQ := 0
    clipCount := 0
    frameCount := 0
    errCode := 0
    errCmd := 0
    run := Run.reset
    mem := []
    hazards := { input := false, output := false }
    frameHazard := FrameHazard.clear
    draws := 0
    host := []
    turns := []
    rdata := none }

end Sys2Proof.Machine
end

