-- ==== Sys2Proof/Machine/Operands.lean ====
section
/-! DEFINITION. The operands of the commands and of a frame: the fields of `CTRL` and `ACTIVE_CFG` (10_state.md R23, R29),
the window selector (41_frontend.md R168), the effective size (40_commands.md R122, R123), and the sample word
(20_memory.md R70). -/
namespace Sys2Proof.Machine

/-- `CTRL.LOG2N_REQ` = bits [3:0] (10_state.md R23). -/
def ctrlLog2nReq (c : BitVec 8) : BitVec 4 := c.extractLsb' 0 4

/-- `CTRL.WINSEL` = bits [5:4] (10_state.md R23). -/
def ctrlWinsel (c : BitVec 8) : BitVec 2 := c.extractLsb' 4 2

/-- `CTRL.LAGFIX` = bit 6 (10_state.md R23). -/
def ctrlLagfix (c : BitVec 8) : Bool := c.getLsbD 6

/-- `CTRL.REV_IQ` = bit 7 (10_state.md R23). -/
def ctrlRevIq (c : BitVec 8) : Bool := c.getLsbD 7

/-- The window a selector names; 3 is reserved (10_state.md R23). -/
def winSelOf : BitVec 2 → Option WinSel
  | 0 => some .hann
  | 1 => some .hamming
  | 2 => some .rectangular
  | _ => none

/-- The selector of a window (10_state.md R29). -/
def winSelBits : WinSel → BitVec 2
  | .hann => 0
  | .hamming => 1
  | .rectangular => 2

/-- The loop of `clampN`, `fuel` passes at most: halve the size while it is above 64 and above the width
(40_commands.md R123). -/
def clampLoop (width : Nat) : Nat → Nat → Nat
  | 0, l => l
  | fuel + 1, l => if Config.minLog2n < l ∧ width < 2 ^ l then clampLoop width fuel (l - 1) else l

/-- `clampN(req, width)`: the effective `LOG2N` and whether it differs from the request (40_commands.md R123). The loop
starts at 10 or less and stops at 6, so four passes suffice. -/
def clampN (req width : Nat) : Nat × Bool :=
  let l := clampLoop width 4 (min (max req Config.minLog2n) Config.maxLog2n)
  (l, l != req)

/-- `ACTIVE_CFG` as a word (10_state.md R29). -/
def activeCfgWord (c : ActiveCfg) : Word :=
  let low : BitVec 9 := BitVec.ofBool c.sizeAdj ++ BitVec.ofBool c.revIq ++ BitVec.ofBool c.lagfix ++ winSelBits c.winsel ++ c.log2n
  low.setWidth 32

/-- `N_eff = 2^LOG2N_EFF` (10_state.md R29). -/
def ActiveCfg.points (c : ActiveCfg) : Nat := 2 ^ c.log2n.toNat

/-- `I = sext_16(w[15:0])` (20_memory.md R70). -/
def sampleI (w : Word) : Int := sext16 (lowHalf w)

/-- `Q = sext_16(w[31:16])` (20_memory.md R70). -/
def sampleQ (w : Word) : Int := sext16 (highHalf w)

/-- `SAMPLE(i, q)`: the sample word of two components (30_encoding.md R109). -/
def sampleWord (i q : Int) : Word := BitVec.ofInt 16 q ++ BitVec.ofInt 16 i

end Sys2Proof.Machine
end

