-- ==== Sys2Proof/Machine/Flags.lean ====
section
/-! DEFINITION. The flags of the block (10_state.md section 9): the sticky event bits of `IRQ_STATUS`, the output `irq`, and
`STATUS` as a view of the run record. -/
namespace Sys2Proof.Machine

/-- `IRQ_STATUS.DONE`, bit 0 (10_state.md R30). -/
def flagDone : BitVec 3 := 0b001

/-- `IRQ_STATUS.CMD_ERR`, bit 1 (10_state.md R30). -/
def flagCmdErr : BitVec 3 := 0b010

/-- `IRQ_STATUS.CLIP`, bit 2 (10_state.md R30). -/
def flagClip : BitVec 3 := 0b100

/-- Setting a sticky flag; a flag already 1 stays 1 (10_state.md R30). -/
def raiseFlag (flags f : BitVec 3) : BitVec 3 := flags ||| f

/-- A bus write of `w`: `IRQ_STATUS <- IRQ_STATUS & ~w[2:0]` (10_state.md R30). -/
def ackFlags (flags : BitVec 3) (w : Word) : BitVec 3 := flags &&& ~~~(w.extractLsb' 0 3)

/-- The flags a completion leaves: DONE, and CLIP for a clipped frame, which is never cleared here (40_commands.md R125). -/
def completionFlags (flags : BitVec 3) (clipped : Bool) : BitVec 3 :=
  if clipped then raiseFlag (raiseFlag flags flagClip) flagDone else raiseFlag flags flagDone

/-- `irq = (IRQ_STATUS[2:0] & IRQ_ENABLE[2:0]) ≠ 0`, a level (10_state.md R41). -/
def State.irq (s : State) : Bool := s.irqStatus &&& s.irqEnable != 0

/-- The host's interrupt inputs: `irq` drives `IRQ_LINE` and no other (60_exceptions.md R230, 00_scope.md R7). -/
def State.irqInput (s : State) (line : Nat) : Bool := decide (line = Config.irqLine) && s.irq

/-- `STATUS.BUSY = 1` exactly when `run.state = BUSY` (10_state.md R39). -/
def busyBit : RunState → BitVec 1
  | .idle => 0
  | .busy => 1

/-- `STATUS`: BUSY, RUN_IN, RUN_OUT (10_state.md R28). -/
def statusWord (r : Run) : Word := (r.outBank ++ r.inBank ++ busyBit r.state : BitVec 3).setWidth 32

end Sys2Proof.Machine
end

