-- ==== Sys2Proof/Machine/Ops.lean ====
section
/-! DEFINITION. The shared operations: RAM bytes and words, the address map, register reads, free values, the rejection of a
command (the block's one exception) and its acknowledgement, discarding a running frame, the reset of the registers. -/
namespace Sys2Proof.Machine

/-! ### RAM (20_memory.md R60, R67, R71 to R73) -/

/-- The canonical form: addresses strictly rising. An unlisted byte has no value, so no entry can equal it. -/
def Memory.wf : Memory → Bool
  | [] => true
  | [_] => true
  | (a, _) :: (b, v) :: rest => decide (a < b) && Memory.wf ((b, v) :: rest)

/-- The byte at an address, none while UNWRITTEN (20_memory.md R73). -/
def Memory.readByte : Memory → Nat → Option Byte
  | [], _ => none
  | (x, v) :: rest, a => if x = a then some v else Memory.readByte rest a

/-- Storing one byte in its place. -/
def Memory.writeByte : Memory → Nat → Byte → Memory
  | [], a, v => [(a, v)]
  | (x, u) :: rest, a, v =>
    if a < x then (a, v) :: (x, u) :: rest
    else if a = x then (a, v) :: rest
    else (x, u) :: Memory.writeByte rest a v

/-- The word at an address: byte lane `i` is the byte of offset `a + i` (20_memory.md R67); none while UNWRITTEN. -/
def Memory.readWord (m : Memory) (a : Nat) : Option Word :=
  match m.readByte a, m.readByte (a + 1), m.readByte (a + 2), m.readByte (a + 3) with
  | some b0, some b1, some b2, some b3 => some (wordOfLanes b0 b1 b2 b3)
  | _, _, _, _ => none

/-- Storing a whole word (20_memory.md R62, R67). -/
def Memory.writeWord (m : Memory) (a : Nat) (w : Word) : Memory :=
  (((m.writeByte a (byteLane w 0)).writeByte (a + 1) (byteLane w 1)).writeByte (a + 2) (byteLane w 2)).writeByte (a + 3)
    (byteLane w 3)

/-- `n` words from address `a` up, none if one of them is UNWRITTEN. -/
def Memory.readWords (m : Memory) (a : Nat) : Nat → Option (List Word)
  | 0 => some []
  | n + 1 =>
    match m.readWord a, Memory.readWords m (a + 4) n with
    | some w, some ws => some (w :: ws)
    | _, _ => none

/-- Storing words from address `a` up. -/
def Memory.writeWords (m : Memory) (a : Nat) : List Word → Memory
  | [] => m
  | w :: ws => Memory.writeWords (m.writeWord a w) (a + 4) ws

/-! ### The address map (20_memory.md R60 to R64) -/

/-- What a transaction acts on. -/
inductive Target
  | reg (r : Reg)
  | sram (b : Bank) (n : Nat)
  | rram (b : Bank) (n : Nat)
  | reserved
deriving DecidableEq, Repr

/-- Byte offset of `SRAM[b][n]`: `0x1000 + 0x1000·b + 4·n` (20_memory.md R60). -/
def sramAddr (b : Bank) (n : Nat) : Nat := 0x1000 + 0x1000 * b.toNat + 4 * n

/-- Byte offset of `RRAM[b][n]`: `0x3000 + 0x1000·b + 4·n` (20_memory.md R60). -/
def rramAddr (b : Bank) (n : Nat) : Nat := 0x3000 + 0x1000 * b.toNat + 4 * n

/-- The offset of a register (10_state.md section 2). -/
def regOffset : Reg → Nat
  | .id => 0x000
  | .version => 0x004
  | .ctrl => 0x008
  | .dispWidth => 0x00C
  | .clipThresh => 0x010
  | .cmd => 0x014
  | .status => 0x018
  | .activeCfg => 0x01C
  | .irqStatus => 0x020
  | .irqEnable => 0x024
  | .maxI => 0x028
  | .maxQ => 0x02C
  | .clipCount => 0x030
  | .frameCount => 0x034
  | .errInfo => 0x038
  | .errCmd => 0x03C

/-- The register at a word offset (10_state.md section 2). -/
def regAt : Nat → Option Reg
  | 0x000 => some .id
  | 0x004 => some .version
  | 0x008 => some .ctrl
  | 0x00C => some .dispWidth
  | 0x010 => some .clipThresh
  | 0x014 => some .cmd
  | 0x018 => some .status
  | 0x01C => some .activeCfg
  | 0x020 => some .irqStatus
  | 0x024 => some .irqEnable
  | 0x028 => some .maxI
  | 0x02C => some .maxQ
  | 0x030 => some .clipCount
  | 0x034 => some .frameCount
  | 0x038 => some .errInfo
  | 0x03C => some .errCmd
  | _ => none

/-- `word_offset(addr) = addr[15:2] << 2`: bits [1:0] are ignored (20_memory.md R63). -/
def wordOffset (a : Offset) : Nat := (a.extractLsb' 2 14).toNat * 4

/-- The map of the aperture (20_memory.md R60, R64): banks by bit 12 above the region's base, words by `o[11:2]`. -/
def target (a : Offset) : Target :=
  let o := wordOffset a
  if o < 0x040 then
    match regAt o with
    | some r => .reg r
    | none => .reserved
  else if 0x1000 ≤ o ∧ o < 0x3000 then .sram (BitVec.ofNat 1 ((o - 0x1000) / 0x1000)) (o / 4 % 1024)
  else if 0x3000 ≤ o ∧ o < 0x5000 then .rram (BitVec.ofNat 1 ((o - 0x3000) / 0x1000)) (o / 4 % 1024)
  else .reserved

/-- The platform's decode of a system address: the block sees offset `a` for system address `BASE_ADDR + a`, and nothing
of an address outside its aperture (20_memory.md R60, R63). -/
def apertureOffset (addr : Nat) : Option Offset :=
  if addr / 0x10000 = Config.basePage then some (BitVec.ofNat 16 addr) else none

/-! ### Registers (10_state.md R21 to R37) -/

/-- What a bus read of a register returns; reserved fields read 0, `CMD` reads 0 (10_state.md R21 to R38). -/
def State.readReg (s : State) : Reg → Word
  | .id => Config.idWord
  | .version => Config.versionWord
  | .ctrl => s.ctrl.setWidth 32
  | .dispWidth => s.dispWidth.setWidth 32
  | .clipThresh => s.clipThresh.setWidth 32
  | .cmd => 0
  | .status => statusWord s.run
  | .activeCfg => activeCfgWord s.activeCfg
  | .irqStatus => s.irqStatus.setWidth 32
  | .irqEnable => s.irqEnable.setWidth 32
  | .maxI => s.maxI.setWidth 32
  | .maxQ => s.maxQ.setWidth 32
  | .clipCount => s.clipCount.setWidth 32
  | .frameCount => s.frameCount
  | .errInfo => s.errCode.setWidth 32
  | .errCmd => s.errCmd

/-! ### Free values (93 U2, U3, U4; log 4) -/

/-- `n` free words, from the `d`-th draw on. -/
def drawnWords (d n : Nat) : List Word := (List.range n).map fun k => Config.drawWord (d + k)

/-! ### The running frame -/

/-- `N` of the running frame, `2^run.cfg.LOG2N_EFF` (40_commands.md R125). -/
def State.frameSize (s : State) : Nat := s.run.cfg.points

/-- Word `n` of sample bank `b` is an input of the running frame (70_reset_and_hazards.md R270). -/
def State.frameReads (s : State) (b : Bank) (n : Nat) : Bool :=
  s.run.state == .busy && b == s.run.inBank && decide (n < s.frameSize)

/-- Word `n` of result bank `b` is an output of the running frame (20_memory.md R74, 70_reset_and_hazards.md R271). -/
def State.frameWrites (s : State) (b : Bank) (n : Nat) : Bool :=
  s.run.state == .busy && b == s.run.outBank && decide (n < s.frameSize)

/-- A running frame is discarded: each of its `N` output words takes one free value and keeps it
(40_commands.md R127, 93 U3). -/
def State.discardFrame (s : State) : State :=
  match s.run.state with
  | .idle => s
  | .busy =>
    { s with
      mem := s.mem.writeWords (rramAddr s.run.outBank 0) (drawnWords s.draws s.frameSize)
      draws := s.draws + s.frameSize
      run := { s.run with state := .idle }
      frameHazard := FrameHazard.clear }

/-- Every register and the run record at the reset value; RAM is left (40_commands.md R130, 70_reset_and_hazards.md R261). -/
def State.resetRegisters (s : State) : State :=
  { s with
    ctrl := State.reset.ctrl
    dispWidth := State.reset.dispWidth
    clipThresh := State.reset.clipThresh
    activeCfg := State.reset.activeCfg
    irqStatus := State.reset.irqStatus
    irqEnable := State.reset.irqEnable
    maxI := State.reset.maxI
    maxQ := State.reset.maxQ
    clipCount := State.reset.clipCount
    frameCount := State.reset.frameCount
    errCode := State.reset.errCode
    errCmd := State.reset.errCmd
    run := State.reset.run
    frameHazard := State.reset.frameHazard }

/-- The reset input: the reset state, every RAM word unspecified again; a running frame never completes. What lies outside
the block goes on: the Host's transactions, the schedule, the word it last read, and the model's record of draws and
hazards (70_reset_and_hazards.md R260; log 8, 14). -/
def State.resetInput (s : State) : State := { s.resetRegisters with mem := State.reset.mem }

/-! ### Taking an exception: the rejection of a command (60_exceptions.md R221 to R229) -/

/-- The error codes (60_exceptions.md R221). -/
def errorCode : CmdError → BitVec 4
  | .illegalOpcode => 1
  | .reservedBits => 2
  | .busy => 3
  | .badWindow => 4

/-- `raise CmdError(code)` for the word `w`: the error record, and nothing else (60_exceptions.md R222, R226). No state is
saved, no mode changes, there is no handler address (R228). -/
def State.reject (s : State) (e : CmdError) (w : Word) : State :=
  { s with errCode := errorCode e, errCmd := w, irqStatus := raiseFlag s.irqStatus flagCmdErr }

/-- The return: the host acknowledges by a write to `IRQ_STATUS`; the record keeps its value (60_exceptions.md R229,
10_state.md R30). -/
def State.ack (s : State) (w : Word) : State := { s with irqStatus := ackFlags s.irqStatus w }

end Sys2Proof.Machine
end

