-- ==== Sys2Proof/Machine/Commands.lean ====
section
/-! DEFINITION. The seven commands (40_commands.md R121 to R130): each meaning is the acceptance check of
60_exceptions.md R223 that applies to it, then its action. -/
namespace Sys2Proof.Machine

/-- `NOP`: nothing (40_commands.md R121). -/
def execNop (s : State) : Host.Outcome State Fault Refusal := .next s

/-- What `CONFIGURE` writes to `ACTIVE_CFG` from `CTRL` and `DISP_WIDTH` (40_commands.md R122). -/
def configured (ctrl : BitVec 8) (width : Half) (win : WinSel) : ActiveCfg :=
  let r := clampN (ctrlLog2nReq ctrl).toNat width.toNat
  { log2n := BitVec.ofNat 4 r.1, winsel := win, lagfix := ctrlLagfix ctrl, revIq := ctrlRevIq ctrl, sizeAdj := r.2 }

/-- `CONFIGURE`: rejected with code 3 while BUSY, then with code 4 for the reserved window; else it applies the staged
configuration (40_commands.md R122, 60_exceptions.md R223 to R225). -/
def execConfigure (s : State) : Host.Outcome State Fault Refusal :=
  match s.run.state with
  | .busy => .next (s.reject .busy (encode .configure))
  | .idle =>
    match winSelOf (ctrlWinsel s.ctrl) with
    | none => .next (s.reject .badWindow (encode .configure))
    | some win => .next { s with activeCfg := configured s.ctrl s.dispWidth win }

/-- `PROCESS IN, OUT`, the issue step: rejected with code 3 while BUSY; else the run record is taken and the frame runs
(40_commands.md R124, 60_exceptions.md R224). -/
def execProcess (inBank outBank : Bank) (s : State) : Host.Outcome State Fault Refusal :=
  match s.run.state with
  | .busy => .next (s.reject .busy (encode (.process inBank outBank)))
  | .idle =>
    .next
      { s with
        run := { state := .busy, inBank := inBank, outBank := outBank, thresh := s.clipThresh, cfg := s.activeCfg }
        frameHazard := FrameHazard.clear }

/-- `ABORT`: the running frame is discarded; no effect while IDLE (40_commands.md R127). -/
def execAbort (s : State) : Host.Outcome State Fault Refusal := .next s.discardFrame

/-- `CLIP_CLR`: `CLIP_COUNT <- 0` (40_commands.md R128). -/
def execClipClr (s : State) : Host.Outcome State Fault Refusal := .next { s with clipCount := 0 }

/-- `CLIP_DEC`: `CLIP_COUNT <- max(CLIP_COUNT - 1, 0)` (40_commands.md R129). -/
def execClipDec (s : State) : Host.Outcome State Fault Refusal :=
  .next { s with clipCount := if s.clipCount = 0 then 0 else s.clipCount - 1 }

/-- `SOFT_RESET`: a running frame is discarded as `ABORT` does, then every register and the run record take their reset
values; RAM is kept (40_commands.md R130, 70_reset_and_hazards.md R261). -/
def execSoftReset (s : State) : Host.Outcome State Fault Refusal := .next s.discardFrame.resetRegisters

end Sys2Proof.Machine
end

