-- ==== Sys2Proof/Machine/Dispatch.lean ====
section
/-! DEFINITION. One arm per command (40_commands.md R121 to R130). -/
namespace Sys2Proof.Machine

def exec (i : Instr) (s : State) : Host.Outcome State Fault Refusal :=
  match i with
  | .nop => Sys2Proof.Machine.execNop s
  | .configure => Sys2Proof.Machine.execConfigure s
  | .process inBank outBank => Sys2Proof.Machine.execProcess inBank outBank s
  | .abort => Sys2Proof.Machine.execAbort s
  | .clipClr => Sys2Proof.Machine.execClipClr s
  | .clipDec => Sys2Proof.Machine.execClipDec s
  | .softReset => Sys2Proof.Machine.execSoftReset s

end Sys2Proof.Machine
end

