-- ==== Sys2Proof/Machine/Bus.lean ====
section
/-! DEFINITION. The Host's transactions (20_memory.md R62 to R66, R69): word reads and word writes of the aperture, the
issue of a command by a write to `CMD` (60_exceptions.md R223), and the two RAM hazards (70_reset_and_hazards.md R270,
R271). -/
namespace Sys2Proof.Machine

/-- The issue step of a command word (60_exceptions.md R223): an illegal word is rejected, a command runs. The checks of
codes 3 and 4 are the commands' own. -/
def State.issue (s : State) (w : Word) : Host.Outcome State Fault Refusal :=
  match decode w with
  | .illegal e => .next (s.reject e w)
  | .command i => exec i s

/-- `write_register`: the writable fields, W1C for `IRQ_STATUS`, a command for `CMD`; a read-only register ignores it
(20_memory.md R65, R66, 10_state.md R21 to R37). -/
def State.writeReg (s : State) (r : Reg) (v : Word) : Host.Outcome State Fault Refusal :=
  match r with
  | .id => .next s
  | .version => .next s
  | .ctrl => .next { s with ctrl := v.extractLsb' 0 8 }
  | .dispWidth => .next { s with dispWidth := lowHalf v }
  | .clipThresh => .next { s with clipThresh := lowHalf v }
  | .cmd => s.issue v
  | .status => .next s
  | .activeCfg => .next s
  | .irqStatus => .next (s.ack v)
  | .irqEnable => .next { s with irqEnable := v.extractLsb' 0 3 }
  | .maxI => .next s
  | .maxQ => .next s
  | .clipCount => .next s
  | .frameCount => .next s
  | .errInfo => .next s
  | .errCmd => .next s

/-- A host write of a sample word. On an input of the running frame it is the hazard `HAZARD_INPUT`: recorded for good, and
every output of the frame becomes open (70_reset_and_hazards.md R270, 93 U4; log 5, 6). -/
def State.writeSample (s : State) (b : Bank) (n : Nat) (v : Word) : State :=
  let t := { s with mem := s.mem.writeWord (sramAddr b n) v }
  if s.frameReads b n then
    { t with hazards := { s.hazards with input := true }, frameHazard := { s.frameHazard with input := true } }
  else t

/-- A host write of a result word. On an output of the running frame it is the hazard `HAZARD_OUTPUT`: recorded for good,
and the final value of that word becomes open (70_reset_and_hazards.md R271, 93 U4; log 5, 7). -/
def State.writeResult (s : State) (b : Bank) (n : Nat) (v : Word) : State :=
  let t := { s with mem := s.mem.writeWord (rramAddr b n) v }
  if s.frameWrites b n then
    { t with
      hazards := { s.hazards with output := true }
      frameHazard := { s.frameHazard with output := s.frameHazard.output.insert n } }
  else t

/-- `MemWrite(addr, 4, v)` (20_memory.md R65). -/
def State.busWrite (s : State) (a : Offset) (v : Word) : Host.Outcome State Fault Refusal :=
  match target a with
  | .reg r => s.writeReg r v
  | .sram b n => .next (s.writeSample b n v)
  | .rram b n => .next (s.writeResult b n v)
  | .reserved => .next s

/-- The answer to a read: a word, a free value (20_memory.md R74, 93 U2), or the fault of an UNWRITTEN word (R73). -/
inductive Reply
  | word (w : Word)
  | draw
  | unwritten
deriving DecidableEq, Repr

/-- The answer a stored RAM word gives. -/
def replyOf : Option Word → Reply
  | some w => .word w
  | none => .unwritten

/-- `MemRead(addr, 4)` (20_memory.md R64, R74). -/
def State.busReply (s : State) (a : Offset) : Reply :=
  match target a with
  | .reg r => .word (s.readReg r)
  | .sram b n => replyOf (s.mem.readWord (sramAddr b n))
  | .rram b n => if s.frameWrites b n then .draw else replyOf (s.mem.readWord (rramAddr b n))
  | .reserved => .word 0

/-- The word a read delivers and the free values it used, none for the fault of an UNWRITTEN word. -/
def State.busRead (s : State) (a : Offset) : Option (Word × Nat) :=
  match s.busReply a with
  | .word w => some (w, 0)
  | .draw => some (Config.drawWord s.draws, 1)
  | .unwritten => none

/-- The word `w` reaches the Host. No state of the block changes (20_memory.md R64, R69). -/
def State.deliver (s : State) (w : Word) (drawn : Nat) : State := { s with rdata := some w, draws := s.draws + drawn }

/-- One iteration of `POLL`: the read, repeated at the Host's next turn until `(t & mask) = val` (30_encoding.md R107). -/
def pollAgain (w mask val : Word) (op : HostOp) (rest : List HostOp) : List HostOp :=
  if w &&& mask = val then rest else op :: rest

/-- One transaction of the Host; `rest` is what it still has to issue (20_memory.md R62, R90). -/
def State.hostOp (s : State) (op : HostOp) (rest : List HostOp) : Host.Outcome State Fault Refusal :=
  match op with
  | .write a v => State.busWrite { s with host := rest } a v
  | .read a =>
    match s.busRead a with
    | some (w, d) => .next (State.deliver { s with host := rest } w d)
    | none => .fault .unwrittenRead
  | .poll a mask val =>
    match s.busRead a with
    | some (w, d) => .next (State.deliver { s with host := pollAgain w mask val op rest } w d)
    | none => .fault .unwrittenRead

/-- A turn of the Host: its next transaction, nothing when it has none (60_exceptions.md R245). -/
def State.hostTurn (s : State) : Host.Outcome State Fault Refusal :=
  match s.host with
  | [] => .next s
  | op :: rest => s.hostOp op rest

end Sys2Proof.Machine
end

