-- ==== Sys2Proof/Machine/Frontend.lean ====
section
/-! DEFINITION. The front end of a frame (41_frontend.md): fetch, raw statistics and clip test, lag fix, I/Q swap, window.
Every function is pure; the order in which they run is `Frame.lean`'s (R161). -/
namespace Sys2Proof.Machine

/-- A sequence of values for each channel, in-phase and quadrature. -/
structure Channels where
  i : List Int
  q : List Int
deriving DecidableEq, Repr

/-- The words of a frame, 0 to `n - 1` of a sample bank, none if one is UNWRITTEN (41_frontend.md R160). -/
def fetchWords (m : Memory) (b : Bank) (n : Nat) : Option (List Word) := m.readWords (sramAddr b 0) n

/-- The samples of the fetched words (41_frontend.md R160, 20_memory.md R70). -/
def fetchChannels (ws : List Word) : Channels := { i := ws.map sampleI, q := ws.map sampleQ }

/-- The largest absolute value of a channel; `abs(−32768) = 32768` (41_frontend.md R162). -/
def maxAbs : List Int → Nat
  | [] => 0
  | v :: vs => max v.natAbs (maxAbs vs)

/-- The clip test on the raw maxima, strict (41_frontend.md R163). -/
def clipTest (mi mq : Nat) (thresh : Half) : Bool := decide (thresh.toNat < mi) || decide (thresh.toNat < mq)

/-- One step of delay, circular within the frame: `Q1[n] = Q[(n - 1) mod N]` (41_frontend.md R166). -/
def delayOne (q : List Int) : List Int :=
  match q.getLast? with
  | some z => z :: q.dropLast
  | none => []

/-- `lagfix(I, Q, en)`: Q is delayed by one sample, I is never shifted (41_frontend.md R166). -/
def lagfix (c : Channels) (en : Bool) : Channels := if en then { c with q := delayOne c.q } else c

/-- `rev_iq(I, Q, en)`: the channels exchange roles (41_frontend.md R167). -/
def revIq (c : Channels) (en : Bool) : Channels := if en then { i := c.q, q := c.i } else c

/-- The window coefficient `W(sel, N, n)`, 32768 meaning 1.0 (41_frontend.md R168). -/
def windowCoef (sel : WinSel) (points n : Nat) : Int :=
  match sel with
  | .hann => rnd (32768 - cosf (n * (Config.circle / points))) 1
  | .hamming => 17695 - rnd (15073 * cosf (n * (Config.circle / points))) 15
  | .rectangular => 32768

/-- The products `rnd(x[n]·w, 15)` of a channel from sample `n` on (41_frontend.md R169). -/
def windowFrom (sel : WinSel) (points : Nat) : Nat → List Int → List Int
  | _, [] => []
  | n, x :: xs => rnd (x * windowCoef sel points n) 15 :: windowFrom sel points (n + 1) xs

/-- `apply_window(I, Q, sel, N)` (41_frontend.md R169). -/
def applyWindow (c : Channels) (sel : WinSel) (points : Nat) : Channels :=
  { i := windowFrom sel points 0 c.i, q := windowFrom sel points 0 c.q }

end Sys2Proof.Machine
end

