-- ==== Sys2Proof/Machine/Fft.lean ====
section
/-! DEFINITION. The radix-2 decimation-in-time FFT (42_fft.md), on unbounded integers (00_scope.md R9): no stored value
exceeds its 24 bits (42_fft.md R187; log 15). The buffer is a list of `2^L` values. -/
namespace Sys2Proof.Machine

/-- A value of the work buffer (42_fft.md R180). -/
structure Cplx where
  re : Int
  im : Int
deriving DecidableEq, Repr

/-- `bitrev_L(n)`: the sum over `i` of `n[i] << (L - 1 - i)` (42_fft.md R186). -/
def bitrev (bits n : Nat) : Nat := ((List.range bits).map fun i => n / 2 ^ i % 2 * 2 ^ (bits - 1 - i)).sum

/-- `load(xr, xi, N)`: sample `n`, shifted left by the guard shift, stands at `bitrev_L(n)`; since `bitrev_L` is its own
inverse, place `m` holds sample `bitrev_L(m)` (42_fft.md R181, R186). -/
def loadBuffer (bits : Nat) (x : Channels) : List Cplx :=
  (List.range (2 ^ bits)).map fun m =>
    { re := x.i.getD (bitrev bits m) 0 * 2 ^ Config.guardShift, im := x.q.getD (bitrev bits m) 0 * 2 ^ Config.guardShift }

/-- The twiddle factor `tw(p) = (COSF(p), -SINF(p))` (42_fft.md R182). -/
def twiddle (p : Nat) : Cplx := { re := cosf p, im := -sinf p }

/-- `cmul(b, p)`: only the sums are rounded (42_fft.md R183). -/
def cmul (b : Cplx) (p : Nat) : Cplx :=
  let w := twiddle p
  { re := rnd (b.re * w.re - b.im * w.im) 15, im := rnd (b.re * w.im + b.im * w.re) 15 }

/-- The two results of a butterfly from `a` and the product `t`, each halved (42_fft.md R184). -/
def halfSum (a t : Cplx) : Cplx := { re := rnd (a.re + t.re) 1, im := rnd (a.im + t.im) 1 }

/-- See `halfSum`. -/
def halfDiff (a t : Cplx) : Cplx := { re := rnd (a.re - t.re) 1, im := rnd (a.im - t.im) 1 }

/-- `butterfly(a, b, p)` (42_fft.md R184). -/
def butterfly (a b : Cplx) (p : Nat) : Cplx × Cplx := (halfSum a (cmul b p), halfDiff a (cmul b p))

/-- The butterflies of one group from index `j` on: the lower half with the upper half, twiddle index `j·step`
(42_fft.md R185). -/
def butterflies (step : Nat) : Nat → List Cplx → List Cplx → List Cplx × List Cplx
  | j, a :: as, b :: bs =>
    let r := butterfly a b (j * step)
    let rest := butterflies step (j + 1) as bs
    (r.1 :: rest.1, r.2 :: rest.2)
  | _, _, _ => ([], [])

/-- The groups of one stage, `2·h` values each (42_fft.md R185). -/
def stageGroups (h step : Nat) : Nat → List Cplx → List Cplx
  | 0, _ => []
  | groups + 1, buf =>
    let r := butterflies step 0 (buf.take h) ((buf.drop h).take h)
    r.1 ++ r.2 ++ stageGroups h step groups (buf.drop (2 * h))

/-- Stage `s` of `bits` stages: distance `2^(s-1)`, twiddle stride `1024 / 2^s` (42_fft.md R185). -/
def stage (bits s : Nat) (buf : List Cplx) : List Cplx :=
  stageGroups (2 ^ (s - 1)) (Config.circle / 2 ^ s) (2 ^ (bits - s)) buf

/-- Stages 1 to `s` (42_fft.md R185). -/
def stages (bits : Nat) : Nat → List Cplx → List Cplx
  | 0, buf => buf
  | s + 1, buf => stage bits (s + 1) (stages bits s buf)

/-- `fft(xr, xi, N)`, `N = 2^bits`: the load and all stages, in natural order (42_fft.md R185, R190). -/
def fft (bits : Nat) (x : Channels) : List Cplx := stages bits bits (loadBuffer bits x)

end Sys2Proof.Machine
end

