-- ==== Sys2Proof/Machine/LogPower.lean ====
section
/-! DEFINITION. The power of a bin and the fixed-point log-power converter (43_logpower.md). -/
namespace Sys2Proof.Machine

/-- `power(X)`: the magnitude squared, exact (43_logpower.md R200). -/
def power (x : Cplx) : Nat := (x.re * x.re + x.im * x.im).toNat

/-- The floor `max(P, 1)` (43_logpower.md R201). -/
def floorPower (p : Nat) : Nat := max p 1

/-- `log2q(Pf)`: exponent and ROM fraction, 16 fraction bits (43_logpower.md R203). -/
def log2q (pf : Nat) : Nat :=
  let e := Nat.log2 pf
  let idx := if 10 ≤ e then pf / 2 ^ (e - 10) % 1024 else pf * 2 ^ (10 - e) % 1024
  e * 65536 + logLut idx

/-- `db_q8(L2)`: dB relative to full scale, Q8.8 (43_logpower.md R205). -/
def dbQ8 (l2 : Nat) : Int := rnd (((l2 : Int) - 42 * 65536) * 197283) 24

/-- The dB value of one bin (43_logpower.md R207). -/
def binDb (x : Cplx) : Int := dbQ8 (log2q (floorPower (power x)))

/-- `log_power(X, N)`: every bin on its own (43_logpower.md R207). -/
def logPower (xs : List Cplx) : List Int := xs.map binDb

end Sys2Proof.Machine
end

