-- ==== Sys2Proof/Machine/Frame.lean ====
section
/-! DEFINITION. A frame as a pure function (40_commands.md R125, R126) and the Engine's one step, the completion. -/
namespace Sys2Proof.Machine

/-- What a frame gives: the result words, the raw maxima, the clip test (40_commands.md R126). -/
structure FrameResult where
  words : List Word
  maxI : Half
  maxQ : Half
  clipped : Bool
deriving DecidableEq, Repr

/-- The windowed samples of a frame: lag fix, then swap, then window (41_frontend.md R161). -/
def frontEnd (cfg : ActiveCfg) (c : Channels) : Channels :=
  applyWindow (revIq (lagfix c cfg.lagfix) cfg.revIq) cfg.winsel cfg.points

/-- The dB values of a frame's samples (40_commands.md R125, 43_logpower.md R207). -/
def frameDb (cfg : ActiveCfg) (c : Channels) : List Int := logPower (fft cfg.log2n.toNat (frontEnd cfg c))

/-- The frame computation, a pure function of the sample words, `run.cfg` and `run.thresh` (40_commands.md R125, R126). -/
def processFrame (cfg : ActiveCfg) (thresh : Half) (ws : List Word) : FrameResult :=
  let c := fetchChannels ws
  { words := (frameDb cfg c).map trunc32
    maxI := BitVec.ofNat 16 (maxAbs c.i)
    maxQ := BitVec.ofNat 16 (maxAbs c.q)
    clipped := clipTest (maxAbs c.i) (maxAbs c.q) thresh }

/-- The result words the completion leaves. A word that a hazard left open takes a free value: every word after an input
hazard, the words the host wrote after an output hazard (70_reset_and_hazards.md R270, R271, 93 U4; log 6, 7). -/
def settleWords (h : FrameHazard) (d : Nat) : Nat → List Word → List Word
  | _, [] => []
  | k, w :: ws => (if h.input || h.output.contains k then Config.drawWord (d + k) else w) :: settleWords h d (k + 1) ws

/-- What a frame gives when hazards are taken into account: after an input hazard every output is open, the maxima within
the bound of 10_state.md R32 (log 6). -/
def settle (h : FrameHazard) (d : Nat) (r : FrameResult) : FrameResult :=
  { words := settleWords h d 0 r.words
    maxI := if h.input then BitVec.ofNat 16 (Config.drawMax d).val else r.maxI
    maxQ := if h.input then BitVec.ofNat 16 (Config.drawMax (d + 1)).val else r.maxQ
    clipped := if h.input then Config.drawClip d else r.clipped }

/-- The free values a completion uses: none unless a hazard left something open. -/
def settleDraws (h : FrameHazard) (n : Nat) : Nat := if h.input || !h.output.isEmpty then n else 0

/-- `CLIP_COUNT <- min(CLIP_COUNT + 1, 65535)` for a clipped frame (41_frontend.md R164). -/
def countClip (c : Half) (clipped : Bool) : Half := if clipped && c != 0xFFFF then c + 1 else c

/-- The commit of a frame: result words, statistics, flags, and back to IDLE, in one step (40_commands.md R125). -/
def State.commitFrame (s : State) (r : FrameResult) : State :=
  { s with
    mem := s.mem.writeWords (rramAddr s.run.outBank 0) r.words
    maxI := r.maxI
    maxQ := r.maxQ
    clipCount := countClip s.clipCount r.clipped
    frameCount := s.frameCount + 1
    irqStatus := completionFlags s.irqStatus r.clipped
    run := { s.run with state := .idle }
    draws := s.draws + settleDraws s.frameHazard s.frameSize
    frameHazard := FrameHazard.clear }

/-- `complete()`, the Engine's only step (40_commands.md R125); a frame that reads an UNWRITTEN word is a model fault
(20_memory.md R73, 93 U1). -/
def State.complete (s : State) : Host.Outcome State Fault Refusal :=
  match fetchWords s.mem s.run.inBank s.frameSize with
  | none => .fault .unwrittenRead
  | some ws => .next (s.commitFrame (settle s.frameHazard s.draws (processFrame s.run.cfg s.run.thresh ws)))

/-- A turn of the Engine: the completion when it is enabled, nothing while IDLE (40_commands.md R125,
60_exceptions.md R245). -/
def State.engineTurn (s : State) : Host.Outcome State Fault Refusal :=
  match s.run.state with
  | .idle => .next s
  | .busy => s.complete

end Sys2Proof.Machine
end

