-- ==== Sys2Proof/Machine/Turns.lean ====
section
/-! DEFINITION. Who moves (00_scope.md R11, 20_memory.md R90, 60_exceptions.md R231): the schedule's head takes the step. -/
namespace Sys2Proof.Machine

/-- The agent whose turn it is. When the schedule has run out, an enabled completion is taken at once and the Host moves
otherwise: one fair continuation (70_reset_and_hazards.md R281, 93 U14, U15; log 1, 12). -/
def State.dueTurn (s : State) : Turn :=
  match s.turns with
  | t :: _ => t
  | [] =>
    match s.run.state with
    | .busy => .engine
    | .idle => .host

/-- The step of one agent: a transaction, a completion, or the reset input (00_scope.md R11). -/
def State.takeTurn (s : State) (t : Turn) : Host.Outcome State Fault Refusal :=
  match t with
  | .host => s.hostTurn
  | .engine => s.engineTurn
  | .reset => .next s.resetInput

/-- One atomic step: the due agent moves and its turn is used up. -/
def State.advance (s : State) : Host.Outcome State Fault Refusal :=
  State.takeTurn { s with turns := s.turns.tail } s.dueTurn

/-- The Host's transactions with the command word in front: a write of the word to `CMD` (40_commands.md R120). -/
def commandFirst (nbits w : Nat) (host : List HostOp) : List HostOp :=
  .write (BitVec.ofNat 16 (regOffset .cmd)) (tableWord nbits w) :: host

end Sys2Proof.Machine
end

