-- ==== Sys2Proof/Machine/Step.lean ====
section
/-! DEFINITION. One step of the block and its surroundings, and where the next command is placed. -/
namespace Sys2Proof.Machine

/-- One atomic step (20_memory.md R90). -/
def step (s : State) : Host.Outcome State Fault Refusal := s.advance

/-- `s` where the Host's next transaction writes the command word to `CMD` and the next turn is the Host's: the next step
issues exactly that command (40_commands.md R120; log 2). -/
def State.withFetchWord (s : State) (nbits w : Nat) : State :=
  { s with host := commandFirst nbits w s.host, turns := .host :: s.turns }

end Sys2Proof.Machine
end

