-- ==== Sys2Proof/WellFormed.lean ====
section
/-! DEFINITION. Which terms of the syntax stand for something the spec writes. A command of type `Instr` carries its
one-bit operands in its type, so every command passes; the checks that refuse are those of the host-script notation, where
operands and offsets are numbers (30_encoding.md R107 to R109). -/
namespace Sys2Proof

/-- Both operands of `PROCESS` are 0 or 1 (30_encoding.md R102). -/
def Instr.wellFormed : Instr → Bool
  | .nop => true
  | .configure => true
  | .process inBank outBank => decide (inBank.toNat ≤ 1) && decide (outBank.toNat ≤ 1)
  | .abort => true
  | .clipClr => true
  | .clipDec => true
  | .softReset => true

/-- A bank is 0 or 1 and a RAM word 0 to 1023; an offset lies in the aperture (30_encoding.md R107, 20_memory.md R60). -/
def Place.wellFormed : Place → Bool
  | .off a => decide (a < 0x10000)
  | .reg _ => true
  | .sram b n => decide (b ≤ 1) && decide (n ≤ 1023)
  | .rram b n => decide (b ≤ 1) && decide (n ≤ 1023)

/-- How many words the list of a `LOADF` writes (30_encoding.md R109). -/
def loadCount : List (Word × Nat) → Nat
  | [] => 0
  | (_, r) :: rest => r + loadCount rest

/-- "any other value is an assembly error (the script is refused before it runs)" (30_encoding.md R108). -/
def Stmt.wellFormed : Stmt → Bool
  | .wr p _ => p.wellFormed
  | .rd p _ => p.wellFormed
  | .poll p _ _ => p.wellFormed
  | .nop => true
  | .configure => true
  | .process inBank outBank => decide (inBank ≤ 1) && decide (outBank ≤ 1)
  | .abort => true
  | .clipClr => true
  | .clipDec => true
  | .softReset => true
  | .waitIdle => true
  | .waitDone => true
  | .ack _ => true
  | .loadF b items => decide (b ≤ 1) && decide (loadCount items ≤ 1024)
  | .blank => true

end Sys2Proof
end

