-- ==== Sys2Proof/Machine/Script.lean ====
section
/-! DEFINITION. The host-script notation (30_encoding.md R107 to R109): what a statement expands to, as bus transactions.
A statement that is not well formed has no expansion: the script is refused before it runs (R108). -/
namespace Sys2Proof.Machine

/-- The byte offset a place stands for (30_encoding.md R107). -/
def placeOffset : Place → Nat
  | .off a => a
  | .reg r => regOffset r
  | .sram b n => 0x1000 + 0x1000 * b + 4 * n
  | .rram b n => 0x3000 + 0x1000 * b + 4 * n

/-- `WR <off>, <val>` (30_encoding.md R107). -/
def writeOp (p : Place) (v : Word) : HostOp := .write (BitVec.ofNat 16 (placeOffset p)) v

/-- `WR CMD, <word>` (30_encoding.md R108). -/
def commandOp (w : Word) : HostOp := writeOp (.reg .cmd) w

/-- The words of a `LOADF` list: an item `w * r` is `r` copies of `w` (30_encoding.md R109). -/
def loadWords : List (Word × Nat) → List Word
  | [] => []
  | (w, r) :: rest => List.replicate r w ++ loadWords rest

/-- The writes of a `LOADF` from word `n` on, in order (30_encoding.md R109). -/
def loadOps (b : Nat) : Nat → List Word → List HostOp
  | _, [] => []
  | n, w :: ws => writeOp (.sram b n) w :: loadOps b (n + 1) ws

/-- The transactions of a well-formed statement (30_encoding.md R107 to R109). The name of an `RD` is the host program's:
the word itself is the block's answer (log 19). -/
def stmtOps : Stmt → List HostOp
  | .wr p v => [writeOp p v]
  | .rd p _ => [.read (BitVec.ofNat 16 (placeOffset p))]
  | .poll p mask val => [.poll (BitVec.ofNat 16 (placeOffset p)) mask val]
  | .nop => [commandOp 0x00000000]
  | .configure => [commandOp 0x00000001]
  | .process inBank outBank => [commandOp (0x00000002 ||| (BitVec.ofNat 32 inBank <<< 8) ||| (BitVec.ofNat 32 outBank <<< 9))]
  | .abort => [commandOp 0x00000003]
  | .clipClr => [commandOp 0x00000004]
  | .clipDec => [commandOp 0x00000005]
  | .softReset => [commandOp 0x00000006]
  | .waitIdle => [.poll (BitVec.ofNat 16 (placeOffset (.reg .status))) 0x00000001 0x00000000]
  | .waitDone => [.poll (BitVec.ofNat 16 (placeOffset (.reg .irqStatus))) 0x00000001 0x00000001]
  | .ack bits => [writeOp (.reg .irqStatus) bits]
  | .loadF b items => loadOps b 0 (loadWords items)
  | .blank => []

/-- The expansion of one statement, none for an assembly error (30_encoding.md R108). -/
def expandStmt (st : Stmt) : Option (List HostOp) := if st.wellFormed then some (stmtOps st) else none

/-- The expansion of a script, none if one statement is refused (30_encoding.md R107, R108). -/
def expandScript : List Stmt → Option (List HostOp)
  | [] => some []
  | st :: rest =>
    match expandStmt st, expandScript rest with
    | some ops, some more => some (ops ++ more)
    | _, _ => none

/-- A state whose Host has the script still to run; a refused script changes nothing (30_encoding.md R107, R108). -/
def State.withScript (s : State) (script : List Stmt) : State :=
  match expandScript script with
  | some ops => { s with host := s.host ++ ops }
  | none => s

/-- A read at a system address reaches the block only inside its aperture (20_memory.md R60, R63; log 11). -/
def systemRead (addr : Nat) : Option HostOp := (apertureOffset addr).map fun a => .read a

/-- A write at a system address reaches the block only inside its aperture (20_memory.md R60, R63; log 11). -/
def systemWrite (addr : Nat) (v : Word) : Option HostOp := (apertureOffset addr).map fun a => .write a v

end Sys2Proof.Machine
end

