-- ==== Sys2Proof/Safety.lean ====
section
/-! DEFINITION. What counts as a safe run, the invariants, and the terms the statements use. -/
namespace Sys2Proof.Machine

/-- No hazard has ever happened (70_reset_and_hazards.md R270, R271). -/
def State.noHazard (s : State) : Bool := !s.hazards.input && !s.hazards.output

/-- A safe outcome: the machine goes on and no hazard is on record. -/
def safeOutcome : Host.Outcome State Fault Refusal → Bool
  | .next s => s.noHazard
  | .fault _ => false
  | .refused _ => false

/-- Every byte of RAM reads as before. -/
def SameBytes (s t : State) : Prop := ∀ a, t.mem.readByte a = s.mem.readByte a

/-- Every byte of RAM outside the `n` bytes from `base` on reads as before. -/
def SameBytesOutside (base n : Nat) (s t : State) : Prop :=
  ∀ a, a < base ∨ base + n ≤ a → t.mem.readByte a = s.mem.readByte a

/-- `LOG2N_EFF` is 6 to 10 (10_state.md R29). -/
def ActiveCfg.legal (c : ActiveCfg) : Prop := Config.minLog2n ≤ c.log2n.toNat ∧ c.log2n.toNat ≤ Config.maxLog2n

/-- The invariant of the block: the memory keeps its canonical form, lies in the two RAMs and is written by whole words
(20_memory.md R60, R62); both configurations are legal (10_state.md R29); a running frame's configuration is the active
one (R39); the maxima and the error code keep their ranges (R32, R33, 60_exceptions.md R221); the frame's hazard record is
empty while IDLE, is on the sticky record, and names output words of the frame only. -/
structure Inv (s : State) : Prop where
  memSorted : s.mem.wf = true
  memInRam : ∀ c ∈ s.mem, 0x1000 ≤ c.1 ∧ c.1 < 0x5000
  memWholeWords : ∀ a, (s.mem.readByte a).isSome = (s.mem.readByte (4 * (a / 4))).isSome
  activeLegal : s.activeCfg.legal
  runLegal : s.run.cfg.legal
  runIsActive : s.run.state = .busy → s.run.cfg = s.activeCfg
  maxIRange : s.maxI.toNat ≤ 32768
  maxQRange : s.maxQ.toNat ≤ 32768
  errCodeRange : s.errCode.toNat ≤ 4
  idleFrameClear : s.run.state = .idle → s.frameHazard = FrameHazard.clear
  inputOnRecord : s.frameHazard.input = true → s.hazards.input = true
  outputOnRecord : s.frameHazard.output ≠ [] → s.hazards.output = true
  outputInFrame : ∀ k ∈ s.frameHazard.output, k < s.frameSize

/-- The error record tells the truth about the word it holds (60_exceptions.md R221, R226): code 0 with no word, code 1 or 2
with a word the decoder calls so, code 3 with a `CONFIGURE` or a `PROCESS`, code 4 with the `CONFIGURE` word. -/
def ErrorRecordTrue (s : State) : Prop :=
  (s.errCode = 0 ∧ s.errCmd = 0) ∨
  (s.errCode = 1 ∧ decode s.errCmd = .illegal .illegalOpcode) ∨
  (s.errCode = 2 ∧ decode s.errCmd = .illegal .reservedBits) ∨
  (s.errCode = 3 ∧ (decode s.errCmd = .command .configure ∨ ∃ b c, decode s.errCmd = .command (.process b c))) ∨
  (s.errCode = 4 ∧ decode s.errCmd = .command .configure)

/-- The step is a host write of a command word that decodes to one of the given commands. -/
def IssuesOneOf (s : State) (is : List Instr) : Prop :=
  ∃ a w rest i, s.dueTurn = .host ∧ s.host = .write a w :: rest ∧ target a = .reg .cmd ∧ decode w = .command i ∧ i ∈ is

/-- The step is a completion (40_commands.md R125). -/
def TakesCompletion (s : State) : Prop := s.dueTurn = .engine ∧ s.run.state = .busy

/-- A value of a sample component: −32768 to 32767 (20_memory.md R70). -/
def SampleRange (v : Int) : Prop := -32768 ≤ v ∧ v ≤ 32767

/-- A frame of `n` samples: two channels of `n` values, each a 16-bit signed integer (41_frontend.md R160). -/
def FrameSamples (n : Nat) (c : Channels) : Prop :=
  c.i.length = n ∧ c.q.length = n ∧ (∀ v ∈ c.i, SampleRange v) ∧ ∀ v ∈ c.q, SampleRange v

/-- Strictly inside `−2^22 .. 2^22` (42_fft.md R187). -/
def Cplx.small (x : Cplx) : Prop := -(2 ^ 22) < x.re ∧ x.re < 2 ^ 22 ∧ -(2 ^ 22) < x.im ∧ x.im < 2 ^ 22

end Sys2Proof.Machine
end

