-- ==== Sys2Proof/Certificates/Slice0/Obligations.lean ====
section
/-! DEFINITION. The statements for the provers. Each docstring names the rule of spec/ it formalises; a statement that rests on
the model's own choice says so and names the log entry. A free value (`Config.drawWord` and its kin) is an uninterpreted
constant: a statement that mentions one holds for every value of it. -/

open Sys2Proof Sys2Proof.Machine

/-! ### Encoding (30_encoding.md) -/

/-- R103, R104: over all 2^32 words, a word decodes to a command exactly when it is that command's word. -/
def Obligations.DecoderAndEncoderAgree : Prop :=
  ∀ (w : Word) (i : Instr), decode w = .command i ↔ (i.wellFormed = true ∧ encode i = w)

/-- R103: a word selects a row of the opcode map exactly when it decodes to a command of that row; the opcodes 0x07 to 0xFF
are illegal; the four `PROCESS` words. -/
def Obligations.DecoderFollowsOpcodeMap : Prop :=
  (∀ w : Word, ∀ r ∈ opcodeMap, (w &&& r.mask = r.word ↔ ∃ i, decode w = .command i ∧ i.mnemonic = r.mnemonic)) ∧
  (∀ w : Word, 7 ≤ w.toNat % 256 → ∃ e, decode w = .illegal e) ∧
  decode 0x00000002 = .command (.process 0 0) ∧ decode 0x00000102 = .command (.process 1 0) ∧
  decode 0x00000202 = .command (.process 0 1) ∧ decode 0x00000302 = .command (.process 1 1)

/-- R104: the decoder's answer for every word, from its numeric fields; the opcode is checked before the reserved bits. -/
def Obligations.DecoderIsTotalOpcodeFirst : Prop :=
  ∀ w : Word,
    (7 ≤ w.toNat % 256 → decode w = .illegal .illegalOpcode) ∧
    (w.toNat % 256 = 2 → w.toNat / 1024 ≠ 0 → decode w = .illegal .reservedBits) ∧
    (w.toNat % 256 = 2 → w.toNat / 1024 = 0 →
      decode w = .command (.process (BitVec.ofBool (w.getLsbD 8)) (BitVec.ofBool (w.getLsbD 9)))) ∧
    (w.toNat % 256 < 7 → w.toNat % 256 ≠ 2 → w.toNat / 256 ≠ 0 → decode w = .illegal .reservedBits) ∧
    (w.toNat = 0 → decode w = .command .nop) ∧ (w.toNat = 1 → decode w = .command .configure) ∧
    (w.toNat = 3 → decode w = .command .abort) ∧ (w.toNat = 4 → decode w = .command .clipClr) ∧
    (w.toNat = 5 → decode w = .command .clipDec) ∧ (w.toNat = 6 → decode w = .command .softReset)

/-- Some words of R103 and of 95_test_vectors.md V1, written out: a sanity statement. -/
def Obligations.WrittenOutWordsDecode : Prop :=
  decode 0b00000000000000000000000000000001#32 = .command .configure ∧
  decode 0b00000000000000000000001000000010#32 = .command (.process 0 1) ∧
  decode 0b00000000000000000000000000000101#32 = .command .clipDec ∧
  decode 0x00000107#32 = .illegal .illegalOpcode ∧ decode 0x10000001#32 = .illegal .reservedBits

/-- R108: a command mnemonic expands to one write of the command's word to `CMD`; a bank other than 0 or 1 is refused. -/
def Obligations.MnemonicsAssembleToOneWrite : Prop :=
  expandStmt .nop = some [.write 0x14 (encode .nop)] ∧
  expandStmt .configure = some [.write 0x14 (encode .configure)] ∧
  (∀ b c : Nat, b ≤ 1 → c ≤ 1 →
    expandStmt (.process b c) = some [.write 0x14 (encode (.process (BitVec.ofNat 1 b) (BitVec.ofNat 1 c)))]) ∧
  (∀ b c : Nat, ¬(b ≤ 1 ∧ c ≤ 1) → expandStmt (.process b c) = none) ∧
  expandStmt .abort = some [.write 0x14 (encode .abort)] ∧
  expandStmt .clipClr = some [.write 0x14 (encode .clipClr)] ∧
  expandStmt .clipDec = some [.write 0x14 (encode .clipDec)] ∧
  expandStmt .softReset = some [.write 0x14 (encode .softReset)]

/-! ### The step and the issue of a command -/

/-- R120: when the Host's turn writes a command word to `CMD` (at any of its four byte offsets), the step is `exec` of the
decoded command; the step's own part is the model's bookkeeping: the turn and the transaction are used up (log 1, 2). -/
def Obligations.StepRunsTheDecodedCommand : Prop :=
  ∀ (s : State) (a : Offset) (w : Word) (rest : List HostOp) (i : Instr),
    s.dueTurn = .host → s.host = .write a w :: rest → a.toNat / 4 = 0x14 / 4 → decode w = .command i → i.wellFormed = true →
    step s = exec i { s with turns := s.turns.tail, host := rest }

/-- R227, with R222 and R226: a rejected word gets the lowest-numbered code that applies, and its record is all that
changes. -/
def Obligations.RejectionRecordsTheFirstCode : Prop :=
  ∀ (s : State) (w : Word),
    let record := fun c : BitVec 4 => { s with errCode := c, errCmd := w, irqStatus := s.irqStatus ||| 0b010 }
    let reserved := (w.toNat % 256 = 2 ∧ w.toNat / 1024 ≠ 0) ∨ (w.toNat % 256 ≠ 2 ∧ w.toNat / 256 ≠ 0)
    (7 ≤ w.toNat % 256 → s.issue w = .next (record 1)) ∧
    (w.toNat % 256 < 7 → reserved → s.issue w = .next (record 2)) ∧
    (¬reserved → (w.toNat % 256 = 1 ∨ w.toNat % 256 = 2) → s.run.state = .busy → s.issue w = .next (record 3)) ∧
    (w.toNat = 1 → s.run.state = .idle → s.ctrl.toNat / 16 % 4 = 3 → s.issue w = .next (record 4))

/-! ### The seven commands (40_commands.md) -/

/-- R121: `NOP` completes and leaves every register and RAM word unchanged. -/
def Obligations.NopLeavesEverything : Prop :=
  ∀ s : State, exec .nop s = .next s

/-- R122: `CONFIGURE` in IDLE with a window other than 3 completes: `ACTIVE_CFG` from `CTRL` and `DISP_WIDTH`, and nothing
else changes. -/
def Obligations.ConfigureAppliesStagedConfiguration : Prop :=
  ∀ s : State, s.run.state = .idle → s.ctrl.toNat / 16 % 4 ≠ 3 →
    ∃ t, exec .configure s = .next t ∧
      t.activeCfg.log2n.toNat = (clampN (s.ctrl.toNat % 16) s.dispWidth.toNat).1 ∧
      t.activeCfg.sizeAdj = (clampN (s.ctrl.toNat % 16) s.dispWidth.toNat).2 ∧
      (winSelBits t.activeCfg.winsel).toNat = s.ctrl.toNat / 16 % 4 ∧
      t.activeCfg.lagfix = s.ctrl.getLsbD 6 ∧ t.activeCfg.revIq = s.ctrl.getLsbD 7 ∧
      t = { s with activeCfg := t.activeCfg } ∧ SameBytes s t

/-- R225: `CONFIGURE` with the reserved window is rejected with code 4, and `ACTIVE_CFG` keeps its value. -/
def Obligations.ReservedWindowIsRejected : Prop :=
  ∀ s : State, s.run.state = .idle → s.ctrl.toNat / 16 % 4 = 3 →
    exec .configure s = .next { s with errCode := 4, errCmd := 0x00000001, irqStatus := s.irqStatus ||| 0b010 }

/-- R224: while BUSY, `CONFIGURE` and `PROCESS` are rejected with code 3 and nothing but the record changes; the other
commands are accepted: they leave the error record, which only `SOFT_RESET` clears. -/
def Obligations.BusyTurnsAwayConfigureAndProcess : Prop :=
  ∀ s : State, s.run.state = .busy →
    exec .configure s = .next { s with errCode := 3, errCmd := 0x00000001, irqStatus := s.irqStatus ||| 0b010 } ∧
    (∀ b c, exec (.process b c) s =
      .next { s with errCode := 3, errCmd := encode (.process b c), irqStatus := s.irqStatus ||| 0b010 }) ∧
    (∀ i ∈ [Instr.nop, .abort, .clipClr, .clipDec], ∃ t, exec i s = .next t ∧
      t.errCode = s.errCode ∧ t.errCmd = s.errCmd ∧ t.irqStatus = s.irqStatus) ∧
    (∃ t, exec .softReset s = .next t ∧ t.errCode = 0 ∧ t.errCmd = 0 ∧ t.irqStatus = 0)

/-- R124: `PROCESS` in IDLE completes its issue step: the run record is taken, `STATUS` shows BUSY and the banks, and
nothing else of the block changes. No value of the new frame is open (the model's record, log 6). -/
def Obligations.ProcessStartsAFrame : Prop :=
  ∀ (s : State) (b c : Bank), s.run.state = .idle →
    ∃ t, exec (.process b c) s = .next t ∧
      t = { s with
        run := { state := .busy, inBank := b, outBank := c, thresh := s.clipThresh, cfg := s.activeCfg }
        frameHazard := { input := false, output := [] } } ∧
      (t.readReg .status).toNat = 1 + 2 * b.toNat + 4 * c.toNat ∧ SameBytes s t

/-- R127: `ABORT` of a running frame completes: each of its `N` output words takes one free value, no other byte changes,
the engine is IDLE, the banks are kept, and no statistic, counter or flag changes. `ABORT` while IDLE has no effect. -/
def Obligations.AbortDiscardsTheRunningFrame : Prop :=
  ∀ s : State,
    (s.run.state = .busy → ∃ t, exec .abort s = .next t ∧
      (∀ k, k < 2 ^ s.run.cfg.log2n.toNat →
        t.mem.readWord (rramAddr s.run.outBank k) = some (Config.drawWord (s.draws + k))) ∧
      SameBytesOutside (rramAddr s.run.outBank 0) (4 * 2 ^ s.run.cfg.log2n.toNat) s t ∧
      t = { s with
        mem := t.mem
        run := { s.run with state := .idle }
        draws := s.draws + 2 ^ s.run.cfg.log2n.toNat
        frameHazard := { input := false, output := [] } }) ∧
    (s.run.state = .idle → exec .abort s = .next s)

/-- R128, R129: `CLIP_CLR` sets `CLIP_COUNT` to 0 and `CLIP_DEC` lowers it by 1, staying at 0; both complete in every state
and change nothing else. -/
def Obligations.ClipCommandsLowerTheCounter : Prop :=
  ∀ s : State,
    (exec .clipClr s = .next { s with clipCount := 0 }) ∧
    (∃ t, exec .clipDec s = .next t ∧ t.clipCount.toNat = s.clipCount.toNat - 1 ∧
      t = { s with clipCount := t.clipCount } ∧ SameBytes s t)

/-- 70_reset_and_hazards.md R261 with 40_commands.md R130: `SOFT_RESET` takes effect in the step of its command write, and
completes in every state with the registers and the run record of the reset state; RAM is kept, except the `N` output words
of a frame it aborts. That an unspecified word is the draw `Config.drawWord` at the counter `draws` is the model's choice
(log 4), and so is the emptied record of what a hazard left open (log 6). What lies outside the block is
`CommandsLeaveTheSurroundings`'s. -/
def Obligations.SoftResetRestoresRegistersKeepsRam : Prop :=
  ∀ s : State, ∃ t, s.busWrite 0x0014 (encode .softReset) = exec .softReset s ∧ exec .softReset s = .next t ∧
    t = { State.reset with
      mem := t.mem, hazards := t.hazards, draws := t.draws, host := t.host, turns := t.turns, rdata := t.rdata } ∧
    (s.run.state = .idle → SameBytes s t ∧ t.draws = s.draws) ∧
    (s.run.state = .busy →
      (∀ k, k < 2 ^ s.run.cfg.log2n.toNat →
        t.mem.readWord (rramAddr s.run.outBank k) = some (Config.drawWord (s.draws + k))) ∧
      SameBytesOutside (rramAddr s.run.outBank 0) (4 * 2 ^ s.run.cfg.log2n.toNat) s t)

/-- R123: the size clamp gives the largest supported size that is at most both `2^req` and `width`, never below 64 nor above
1024, and flags a change; with the rule's values. -/
def Obligations.ClampGivesTheLargestFittingSize : Prop :=
  (∀ req width, req < 16 → width < 65536 →
    let l := (clampN req width).1
    6 ≤ l ∧ l ≤ 10 ∧ (l ≤ req ∨ l = 6) ∧ (2 ^ l ≤ width ∨ l = 6) ∧
    (∀ l', 6 ≤ l' → l' ≤ 10 → l' ≤ req → 2 ^ l' ≤ width → l' ≤ l) ∧
    ((clampN req width).2 = true ↔ l ≠ req)) ∧
  clampN 10 1024 = (10, false) ∧ clampN 10 1023 = (9, true) ∧ clampN 10 200 = (7, true) ∧
  clampN 12 65535 = (10, true) ∧ clampN 4 1024 = (6, true) ∧ clampN 9 10 = (6, true) ∧ clampN 6 0 = (6, false)

/-! ### Bus, registers, memory (10_state.md, 20_memory.md) -/

/-- R66: every write completes, whatever it acts on; a read completes unless it reads an UNWRITTEN RAM word (R73). -/
def Obligations.EveryTransactionCompletes : Prop :=
  ∀ (s : State) (a : Offset),
    (∀ v, ∃ t, s.busWrite a v = .next t) ∧
    (s.busRead a = none →
      (∃ b n, target a = .sram b n ∧ s.mem.readWord (sramAddr b n) = none) ∨
      (∃ b n, target a = .rram b n ∧ s.mem.readWord (rramAddr b n) = none))

/-- R64, R69: a read delivers its word and changes no register, no RAM byte and no run record; only the model's own fields
move: the Host's list, the turn, the delivered word, the count of free values (log 1 to 4). -/
def Obligations.ReadsHaveNoSideEffect : Prop :=
  ∀ (s : State) (a : Offset) (rest : List HostOp) (w : Word) (d : Nat),
    s.dueTurn = .host → s.host = .read a :: rest → s.busRead a = some (w, d) →
    step s = .next { s with turns := s.turns.tail, host := rest, rdata := some w, draws := s.draws + d }

/-- R71, R72: a RAM word reads back as the Host wrote it; the write changes no other byte and no register. A result word
the running frame owns is R74's. -/
def Obligations.RamWordReadsBackAsWritten : Prop :=
  ∀ (s : State) (b : Bank) (n : Nat) (v : Word), n < 1024 →
    (∃ t, s.busWrite (BitVec.ofNat 16 (0x1000 + 0x1000 * b.toNat + 4 * n)) v = .next t ∧
      t.busRead (BitVec.ofNat 16 (0x1000 + 0x1000 * b.toNat + 4 * n)) = some (v, 0) ∧
      SameBytesOutside (0x1000 + 0x1000 * b.toNat + 4 * n) 4 s t ∧
      t = { s with mem := t.mem, hazards := t.hazards, frameHazard := t.frameHazard }) ∧
    ((s.run.state = .idle ∨ b ≠ s.run.outBank ∨ 2 ^ s.run.cfg.log2n.toNat ≤ n) →
      ∃ t, s.busWrite (BitVec.ofNat 16 (0x3000 + 0x1000 * b.toNat + 4 * n)) v = .next t ∧
      t.busRead (BitVec.ofNat 16 (0x3000 + 0x1000 * b.toNat + 4 * n)) = some (v, 0) ∧
      SameBytesOutside (0x3000 + 0x1000 * b.toNat + 4 * n) 4 s t ∧
      t = { s with mem := t.mem })

/-- R63: a transaction at offset `a` acts on the word at `a & 0xFFFC`; the block sees `addr[15:0]` and the platform decodes
the bits above. -/
def Obligations.OffsetsActOnTheAlignedWord : Prop :=
  (∀ (s : State) (a : Offset) (v : Word),
    target a = target (a &&& 0xFFFC) ∧ wordOffset a = (a &&& 0xFFFC).toNat ∧
    s.busWrite a v = s.busWrite (a &&& 0xFFFC) v ∧ s.busRead a = s.busRead (a &&& 0xFFFC)) ∧
  (∀ (addr : Nat) (a : Offset), apertureOffset addr = some a → a.toNat = addr % 0x10000 ∧ addr / 0x10000 = Config.basePage)

/-- R60: the word at `0x1000 + 0x1000·(2·r + b) + 4·n` is `SRAM[b][n]` for `r = 0` and `RRAM[b][n]` for `r = 1`; each
register stands at its offset; byte offset `a` is system address `BASE_ADDR + a`. -/
def Obligations.AddressMapPlacesEveryWord : Prop :=
  (∀ (b : Bank) (n : Nat), n < 1024 →
    target (BitVec.ofNat 16 (0x1000 + 0x1000 * (2 * 0 + b.toNat) + 4 * n)) = .sram b n ∧
    target (BitVec.ofNat 16 (0x1000 + 0x1000 * (2 * 1 + b.toNat) + 4 * n)) = .rram b n) ∧
  (∀ r : Reg, target (BitVec.ofNat 16 (regOffset r)) = .reg r) ∧
  (∀ (addr : Nat) (a : Offset), apertureOffset addr = some a ↔ addr = Config.baseAddr + a.toNat)

/-- R61: the reserved ranges read 0 and ignore writes, with no side effect and no error. -/
def Obligations.ReservedSpaceReadsZeroIgnoresWrites : Prop :=
  ∀ (s : State) (a : Offset) (v : Word),
    ((0x0040 ≤ a.toNat ∧ a.toNat ≤ 0x0FFF) ∨ 0x5000 ≤ a.toNat) →
    s.busRead a = some (0, 0) ∧ s.busWrite a v = .next s

/-- R21 to R38, R64, R65: each register stands at its offset; a bus read there returns, in every state, the register's word
made of its fields (`CMD` reads 0), and a bus write there is the register's write; the read-only registers ignore it. -/
def Obligations.ReadOnlyRegistersIgnoreWrites : Prop :=
  let offset : Reg → Offset := fun r => BitVec.ofNat 16 (regOffset r)
  [Reg.id, .version, .ctrl, .dispWidth, .clipThresh, .cmd, .status, .activeCfg, .irqStatus, .irqEnable, .maxI, .maxQ,
    .clipCount, .frameCount, .errInfo, .errCmd].map regOffset =
      [0x00, 0x04, 0x08, 0x0C, 0x10, 0x14, 0x18, 0x1C, 0x20, 0x24, 0x28, 0x2C, 0x30, 0x34, 0x38, 0x3C] ∧
  winSelBits .hann = 0 ∧ winSelBits .hamming = 1 ∧ winSelBits .rectangular = 2 ∧
  ∀ s : State,
    (∀ r v, s.busWrite (offset r) v = s.writeReg r v) ∧
    (∀ r ∈ [Reg.id, .version, .status, .activeCfg, .maxI, .maxQ, .clipCount, .frameCount, .errInfo, .errCmd], ∀ v,
      s.busWrite (offset r) v = .next s) ∧
    (∀ r, s.busRead (offset r) = some (s.readReg r, 0)) ∧
    s.readReg .id = 0x46465431 ∧ s.readReg .version = 0x00010000 ∧ s.readReg .cmd = 0 ∧
    (s.readReg .ctrl).toNat = s.ctrl.toNat ∧ (s.readReg .dispWidth).toNat = s.dispWidth.toNat ∧
    (s.readReg .clipThresh).toNat = s.clipThresh.toNat ∧
    (s.readReg .status).toNat =
      (if s.run.state = .busy then 1 else 0) + 2 * s.run.inBank.toNat + 4 * s.run.outBank.toNat ∧
    (s.readReg .activeCfg).toNat =
      s.activeCfg.log2n.toNat + 16 * (winSelBits s.activeCfg.winsel).toNat + 64 * s.activeCfg.lagfix.toNat +
        128 * s.activeCfg.revIq.toNat + 256 * s.activeCfg.sizeAdj.toNat ∧
    (s.readReg .irqStatus).toNat = s.irqStatus.toNat ∧ (s.readReg .irqEnable).toNat = s.irqEnable.toNat ∧
    (s.readReg .maxI).toNat = s.maxI.toNat ∧ (s.readReg .maxQ).toNat = s.maxQ.toNat ∧
    (s.readReg .clipCount).toNat = s.clipCount.toNat ∧ s.readReg .frameCount = s.frameCount ∧
    (s.readReg .errInfo).toNat = s.errCode.toNat ∧ s.readReg .errCmd = s.errCmd

/-- R23, R25, R26, R31, R65: a bus write at the register's offset stores exactly the writable bits, the bus read returns them
with 0 above, and nothing else changes. -/
def Obligations.WritableRegistersStoreTheirFields : Prop :=
  let offset : Reg → Offset := fun r => BitVec.ofNat 16 (regOffset r)
  ∀ (s : State) (v : Word),
    (∃ t, s.busWrite (offset .ctrl) v = .next t ∧ t.busRead (offset .ctrl) = some (v &&& 0x000000FF, 0) ∧
      t = { s with ctrl := t.ctrl }) ∧
    (∃ t, s.busWrite (offset .dispWidth) v = .next t ∧ t.busRead (offset .dispWidth) = some (v &&& 0x0000FFFF, 0) ∧
      t = { s with dispWidth := t.dispWidth }) ∧
    (∃ t, s.busWrite (offset .clipThresh) v = .next t ∧ t.busRead (offset .clipThresh) = some (v &&& 0x0000FFFF, 0) ∧
      t = { s with clipThresh := t.clipThresh }) ∧
    (∃ t, s.busWrite (offset .irqEnable) v = .next t ∧ t.busRead (offset .irqEnable) = some (v &&& 0x00000007, 0) ∧
      t = { s with irqEnable := t.irqEnable })

/-- R30, R65, R229: a bus write at the offset of `IRQ_STATUS` clears the flags written 1, sets none, and leaves `ERR_INFO`,
`ERR_CMD` and everything else. -/
def Obligations.IrqStatusWriteClearsOnes : Prop :=
  ∀ (s : State) (w : Word), ∃ t, s.busWrite (BitVec.ofNat 16 (regOffset .irqStatus)) w = .next t ∧
    (∀ i, i < 3 → t.irqStatus.getLsbD i = (s.irqStatus.getLsbD i && !w.getLsbD i)) ∧
    t = { s with irqStatus := t.irqStatus }

/-- R41: `irq` is the level of the enabled pending flags; R230: it drives the host's input `IRQ_LINE` and no other. -/
def Obligations.IrqIsTheEnabledPendingLevel : Prop :=
  ∀ s : State,
    (s.irq = true ↔ ∃ i, i < 3 ∧ s.irqStatus.getLsbD i = true ∧ s.irqEnable.getLsbD i = true) ∧
    (∀ line, s.irqInput line = true ↔ line = Config.irqLine ∧ s.irq = true)

/-- R73: a host read of an UNWRITTEN word is the model fault `UNWRITTEN_READ`, and after reset every word is UNWRITTEN. -/
def Obligations.UnwrittenReadFaults : Prop :=
  (∀ (s : State) (a : Offset) (rest : List HostOp) (b : Bank) (n : Nat),
    s.dueTurn = .host → s.host = .read a :: rest → target a = .sram b n → s.mem.readWord (sramAddr b n) = none →
    step s = .fault .unwrittenRead) ∧
  (∀ (s : State) (a : Offset) (rest : List HostOp) (b : Bank) (n : Nat),
    s.dueTurn = .host → s.host = .read a :: rest → target a = .rram b n → s.frameWrites b n = false →
    s.mem.readWord (rramAddr b n) = none → step s = .fault .unwrittenRead) ∧
  (∀ a, State.reset.mem.readWord a = none)

/-- R64, R74: while BUSY, a read of an output word of the running frame answers a free value, which is the draw
`Config.drawWord` at the counter `draws` by the model's choice (log 4); every other written RAM word, in IDLE every one,
answers the stored word. -/
def Obligations.EarlyOutputReadsAreFree : Prop :=
  ∀ (s : State) (b : Bank) (n : Nat), n < 1024 →
    (s.run.state = .busy → b = s.run.outBank → n < 2 ^ s.run.cfg.log2n.toNat →
      s.busRead (BitVec.ofNat 16 (0x3000 + 0x1000 * b.toNat + 4 * n)) = some (Config.drawWord s.draws, 1)) ∧
    (∀ w, (s.run.state = .idle ∨ b ≠ s.run.outBank ∨ 2 ^ s.run.cfg.log2n.toNat ≤ n) →
      s.mem.readWord (rramAddr b n) = some w →
      s.busRead (BitVec.ofNat 16 (0x3000 + 0x1000 * b.toNat + 4 * n)) = some (w, 0)) ∧
    (∀ w, s.mem.readWord (sramAddr b n) = some w →
      s.busRead (BitVec.ofNat 16 (0x1000 + 0x1000 * b.toNat + 4 * n)) = some (w, 0))

/-! ### The completion (40_commands.md R125) -/

/-- R125, R160, R70: the completion of a frame whose sample words are all written and that no hazard touched commits, in one
step, the result words, the raw maxima, the clip counter, the frame counter, the flags and IDLE; no other byte and no other
field changes. Sample `n` is the signed low half (I) and the signed high half (Q) of word `n`. -/
def Obligations.CompletionCommitsTheFrame : Prop :=
  ∀ (s : State) (f : Nat → Word), s.run.state = .busy → s.frameHazard = FrameHazard.clear →
    (∀ n, n < 2 ^ s.run.cfg.log2n.toNat → s.mem.readWord (sramAddr s.run.inBank n) = some (f n)) →
    let c := fetchChannels ((List.range (2 ^ s.run.cfg.log2n.toNat)).map f)
    let clipped := s.run.thresh.toNat < maxAbs c.i ∨ s.run.thresh.toNat < maxAbs c.q
    c.i.length = 2 ^ s.run.cfg.log2n.toNat ∧ c.q.length = 2 ^ s.run.cfg.log2n.toNat ∧
    (∀ n, n < 2 ^ s.run.cfg.log2n.toNat →
      c.i.getD n 0 = ((f n).extractLsb' 0 16).toInt ∧ c.q.getD n 0 = ((f n).extractLsb' 16 16).toInt) ∧
    ∃ t, s.engineTurn = .next t ∧
      (∀ k, k < 2 ^ s.run.cfg.log2n.toNat →
        t.mem.readWord (rramAddr s.run.outBank k) = some (trunc32 ((frameDb s.run.cfg c).getD k 0))) ∧
      SameBytesOutside (rramAddr s.run.outBank 0) (4 * 2 ^ s.run.cfg.log2n.toNat) s t ∧
      t.maxI.toNat = maxAbs c.i ∧ t.maxQ.toNat = maxAbs c.q ∧
      (clipped → t.clipCount.toNat = min (s.clipCount.toNat + 1) 65535) ∧ (¬clipped → t.clipCount = s.clipCount) ∧
      t.irqStatus.getLsbD 0 = true ∧ t.irqStatus.getLsbD 1 = s.irqStatus.getLsbD 1 ∧
      (t.irqStatus.getLsbD 2 = true ↔ s.irqStatus.getLsbD 2 = true ∨ clipped) ∧
      t = { s with
        mem := t.mem, maxI := t.maxI, maxQ := t.maxQ, clipCount := t.clipCount, irqStatus := t.irqStatus
        frameCount := s.frameCount + 1, run := { s.run with state := .idle } }

/-- R73, R160: a completion whose frame reads an UNWRITTEN sample word is the model fault; an engine turn while IDLE does
nothing (R125: the completion is enabled exactly when BUSY). -/
def Obligations.CompletionNeedsWrittenSamples : Prop :=
  ∀ s : State,
    (∀ n, s.run.state = .busy → n < 2 ^ s.run.cfg.log2n.toNat → s.mem.readWord (sramAddr s.run.inBank n) = none →
      s.engineTurn = .fault .unwrittenRead) ∧
    (s.run.state = .idle → s.engineTurn = .next s)

/-- R75: a completion leaves the result words from `N_eff` on, and every word of the other result bank, unchanged; and it
never writes sample RAM (R71). -/
def Obligations.CompletionLeavesOtherWords : Prop :=
  ∀ s t : State, s.run.cfg.legal → s.run.state = .busy → s.engineTurn = .next t →
    (∀ k, 2 ^ s.run.cfg.log2n.toNat ≤ k → k < 1024 →
      t.mem.readWord (rramAddr s.run.outBank k) = s.mem.readWord (rramAddr s.run.outBank k)) ∧
    (∀ b k, b ≠ s.run.outBank → k < 1024 → t.mem.readWord (rramAddr b k) = s.mem.readWord (rramAddr b k)) ∧
    (∀ b n, n < 1024 → t.mem.readWord (sramAddr b n) = s.mem.readWord (sramAddr b n))

/-- R126: two frames with equal samples, configuration and threshold give equal result words, maxima and clip outcome,
whatever the banks, the registers, the rest of the memory and the moment. -/
def Obligations.FrameResultDependsOnItsInputsOnly : Prop :=
  ∀ s s' t : State, s.run.state = .busy → s'.run.state = .busy →
    s.frameHazard = FrameHazard.clear → s'.frameHazard = FrameHazard.clear →
    s.run.cfg = s'.run.cfg → s.run.thresh = s'.run.thresh →
    (∀ n, n < 2 ^ s.run.cfg.log2n.toNat →
      s.mem.readWord (sramAddr s.run.inBank n) = s'.mem.readWord (sramAddr s'.run.inBank n)) →
    s.engineTurn = .next t →
    ∃ t' clipped, s'.engineTurn = .next t' ∧ t.maxI = t'.maxI ∧ t.maxQ = t'.maxQ ∧
      (∀ k, k < 2 ^ s.run.cfg.log2n.toNat →
        t.mem.readWord (rramAddr s.run.outBank k) = t'.mem.readWord (rramAddr s'.run.outBank k)) ∧
      (clipped = true ↔ s.run.thresh.toNat < t.maxI.toNat ∨ s.run.thresh.toNat < t.maxQ.toNat) ∧
      t.clipCount = countClip s.clipCount clipped ∧ t'.clipCount = countClip s'.clipCount clipped ∧
      t.irqStatus = completionFlags s.irqStatus clipped ∧ t'.irqStatus = completionFlags s'.irqStatus clipped

/-- R24, R26: a write to `CTRL`, `DISP_WIDTH`, `CLIP_THRESH` or `IRQ_ENABLE` while a frame runs does not reach it: the
completion after the write gives what the write after the completion gives. -/
def Obligations.LaterRegisterWritesMissTheFrame : Prop :=
  ∀ (s t u : State) (v : Word), ∀ r ∈ [Reg.ctrl, .dispWidth, .clipThresh, .irqEnable],
    s.run.state = .busy → s.engineTurn = .next t → s.writeReg r v = .next u →
    ∃ x, u.engineTurn = .next x ∧ t.writeReg r v = .next x

/-! ### Hazards (70_reset_and_hazards.md) -/

/-- R273: while a frame runs, a host write of a word that is neither an input nor an output of it has the defined result,
records no hazard, and does not change what the completion gives; a sample word that has been written can be read. -/
def Obligations.DoubleBufferingIsSafe : Prop :=
  ∀ (s : State) (b : Bank) (n : Nat) (v : Word), Inv s → s.run.state = .busy → n < 1024 →
    ((b ≠ s.run.inBank ∨ 2 ^ s.run.cfg.log2n.toNat ≤ n) →
      (s.writeSample b n v).hazards = s.hazards ∧ (s.writeSample b n v).frameHazard = s.frameHazard ∧
      (s.writeSample b n v).mem.readWord (sramAddr b n) = some v ∧
      ∀ t, s.engineTurn = .next t → ∃ x, (s.writeSample b n v).engineTurn = .next x ∧ x = { t with mem := x.mem } ∧
        SameBytesOutside (sramAddr b n) 4 t x ∧ x.mem.readWord (sramAddr b n) = some v) ∧
    ((b ≠ s.run.outBank ∨ 2 ^ s.run.cfg.log2n.toNat ≤ n) →
      (s.writeResult b n v).hazards = s.hazards ∧ (s.writeResult b n v).frameHazard = s.frameHazard ∧
      (s.writeResult b n v).mem.readWord (rramAddr b n) = some v ∧
      ∀ t, s.engineTurn = .next t → ∃ x, (s.writeResult b n v).engineTurn = .next x ∧ x = { t with mem := x.mem } ∧
        SameBytesOutside (rramAddr b n) 4 t x ∧ x.mem.readWord (rramAddr b n) = some v) ∧
    (∀ w, s.mem.readWord (sramAddr b n) = some w → s.busRead (BitVec.ofNat 16 (sramAddr b n)) = some (w, 0))

/-- R270, R271: a host write of an input or output word of the running frame completes and puts the hazard on record, and no
step takes it off again (that nothing clears the record is the model's choice, log 8). -/
def Obligations.HazardsAreRecordedForGood : Prop :=
  (∀ (s : State) (n : Nat) (v : Word), s.run.state = .busy → n < 1024 → n < 2 ^ s.run.cfg.log2n.toNat →
    (∃ t, s.busWrite (BitVec.ofNat 16 (sramAddr s.run.inBank n)) v = .next t ∧ t.hazards.input = true ∧
      t.frameHazard.input = true) ∧
    (∃ t, s.busWrite (BitVec.ofNat 16 (rramAddr s.run.outBank n)) v = .next t ∧ t.hazards.output = true ∧
      n ∈ t.frameHazard.output)) ∧
  (∀ s t : State, step s = .next t →
    (s.hazards.input = true → t.hazards.input = true) ∧ (s.hazards.output = true → t.hazards.output = true))

/-- R270, R271, R125, 93 U4 as the model goes on past a hazard (log 4, 6, 7): the completion commits as always. After an input
hazard every result word, both maxima and the clip outcome are free values; after an output hazard alone only the words the
Host wrote are, and the rest is the frame's. `CLIP_COUNT` and CLIP follow the clip outcome, free or not; DONE, the frame
counter and IDLE depend on no open value. -/
def Obligations.HazardLeavesFreeValues : Prop :=
  ∀ (s : State) (f : Nat → Word), s.run.state = .busy →
    (∀ n, n < 2 ^ s.run.cfg.log2n.toNat → s.mem.readWord (sramAddr s.run.inBank n) = some (f n)) →
    let c := fetchChannels ((List.range (2 ^ s.run.cfg.log2n.toNat)).map f)
    let clipped :=
      (s.frameHazard.input = true ∧ Config.drawClip s.draws = true) ∨
      (s.frameHazard.input = false ∧ (s.run.thresh.toNat < maxAbs c.i ∨ s.run.thresh.toNat < maxAbs c.q))
    ∃ t, s.engineTurn = .next t ∧
      (∀ k, k < 2 ^ s.run.cfg.log2n.toNat → (s.frameHazard.input = true ∨ k ∈ s.frameHazard.output) →
        t.mem.readWord (rramAddr s.run.outBank k) = some (Config.drawWord (s.draws + k))) ∧
      (∀ k, k < 2 ^ s.run.cfg.log2n.toNat → s.frameHazard.input = false → k ∉ s.frameHazard.output →
        t.mem.readWord (rramAddr s.run.outBank k) = some (trunc32 ((frameDb s.run.cfg c).getD k 0))) ∧
      SameBytesOutside (rramAddr s.run.outBank 0) (4 * 2 ^ s.run.cfg.log2n.toNat) s t ∧
      (s.frameHazard.input = true → t.maxI.toNat = (Config.drawMax s.draws).val ∧
        t.maxQ.toNat = (Config.drawMax (s.draws + 1)).val) ∧
      (s.frameHazard.input = false → t.maxI.toNat = maxAbs c.i ∧ t.maxQ.toNat = maxAbs c.q) ∧
      (clipped → t.clipCount.toNat = min (s.clipCount.toNat + 1) 65535) ∧ (¬clipped → t.clipCount = s.clipCount) ∧
      t.irqStatus.getLsbD 0 = true ∧ t.irqStatus.getLsbD 1 = s.irqStatus.getLsbD 1 ∧
      (t.irqStatus.getLsbD 2 = true ↔ s.irqStatus.getLsbD 2 = true ∨ clipped) ∧
      t = { s with
        mem := t.mem, maxI := t.maxI, maxQ := t.maxQ, clipCount := t.clipCount, irqStatus := t.irqStatus
        frameCount := s.frameCount + 1, run := { s.run with state := .idle }
        draws := s.draws + (if s.frameHazard = FrameHazard.clear then 0 else 2 ^ s.run.cfg.log2n.toNat)
        frameHazard := FrameHazard.clear }

/-! ### The frame computation (00_scope.md R9, 41_frontend.md, 42_fft.md, 43_logpower.md) -/

/-- R9: `rnd(v, s)` is the integer nearest to `v / 2^s`, ties toward +∞. -/
def Obligations.RoundingIsToNearestTiesUp : Prop :=
  ∀ (v r : Int) (s : Nat), 1 ≤ s → (rnd v s = r ↔ -(2 ^ (s - 1)) ≤ v - r * 2 ^ s ∧ v - r * 2 ^ s < 2 ^ (s - 1))

/-- R82: the full-circle values lie in −32768..32768, are even and half-wave antisymmetric, and the sine is the cosine a
quarter later. -/
def Obligations.CosineRomIsSymmetric : Prop :=
  (∀ p, p < 1024 → -32768 ≤ cosf p ∧ cosf p ≤ 32768 ∧ sinf p = cosf ((p + 1024 - 256) % 1024)) ∧
  (∀ p, 1 ≤ p → p < 1024 → cosf p = cosf (1024 - p)) ∧
  (∀ p, p < 512 → cosf (p + 512) = -cosf p)

/-- R168: every coefficient lies in 0..32768, the periodic window is symmetric, and its values at the quarter points. -/
def Obligations.WindowCoefficientsAreSymmetric : Prop :=
  ∀ bits, 6 ≤ bits → bits ≤ 10 → ∀ sel,
    (∀ n, n < 2 ^ bits → 0 ≤ windowCoef sel (2 ^ bits) n ∧ windowCoef sel (2 ^ bits) n ≤ 32768) ∧
    (∀ n, 1 ≤ n → n < 2 ^ bits → windowCoef sel (2 ^ bits) n = windowCoef sel (2 ^ bits) (2 ^ bits - n)) ∧
    windowCoef .hann (2 ^ bits) 0 = 0 ∧ windowCoef .hann (2 ^ bits) (2 ^ bits / 2) = 32768 ∧
    windowCoef .hann (2 ^ bits) (2 ^ bits / 4) = 16384 ∧ windowCoef .hamming (2 ^ bits) 0 = 2622 ∧
    windowCoef .hamming (2 ^ bits) (2 ^ bits / 2) = 32768 ∧ windowCoef .hamming (2 ^ bits) (2 ^ bits / 4) = 17695

/-- R169: windowing multiplies sample `n` by its coefficient and rounds, stays in 16 bits, and is the identity for the
rectangular window. -/
def Obligations.WindowKeepsSixteenBits : Prop :=
  ∀ bits, 6 ≤ bits → bits ≤ 10 → ∀ sel c, FrameSamples (2 ^ bits) c →
    FrameSamples (2 ^ bits) (applyWindow c sel (2 ^ bits)) ∧
    (∀ n, n < 2 ^ bits →
      (applyWindow c sel (2 ^ bits)).i.getD n 0 = rnd (c.i.getD n 0 * windowCoef sel (2 ^ bits) n) 15 ∧
      (applyWindow c sel (2 ^ bits)).q.getD n 0 = rnd (c.q.getD n 0 * windowCoef sel (2 ^ bits) n) 15) ∧
    applyWindow c .rectangular (2 ^ bits) = c

/-- R161, R166, R167: the lag fix delays Q by one sample, circularly within the frame, and never shifts I; the swap exchanges
the channels; each is the identity when off. A frame fetches its samples, takes the maxima and the clip test on the raw ones,
and then applies lag fix, swap and window in this order before the transform. -/
def Obligations.LagfixIsACircularDelay : Prop :=
  (∀ c : Channels,
    (lagfix c false = c) ∧ (lagfix c true).i = c.i ∧ (lagfix c true).q.length = c.q.length ∧
    (∀ n, n < c.q.length → (lagfix c true).q.getD n 0 = c.q.getD ((n + c.q.length - 1) % c.q.length) 0) ∧
    maxAbs (lagfix c true).q = maxAbs c.q ∧
    revIq c false = c ∧ (revIq c true).i = c.q ∧ (revIq c true).q = c.i) ∧
  (∀ (cfg : ActiveCfg) (c : Channels),
    frontEnd cfg c = applyWindow (revIq (lagfix c cfg.lagfix) cfg.revIq) cfg.winsel (2 ^ cfg.log2n.toNat) ∧
    frameDb cfg c = logPower (fft cfg.log2n.toNat (frontEnd cfg c))) ∧
  (∀ (cfg : ActiveCfg) (thresh : Half) (ws : List Word),
    let raw := fetchChannels ws
    let r := processFrame cfg thresh ws
    r.maxI.toNat = maxAbs raw.i ∧ r.maxQ.toNat = maxAbs raw.q ∧
    (r.clipped = true ↔ thresh.toNat < maxAbs raw.i ∨ thresh.toNat < maxAbs raw.q) ∧
    r.words = (frameDb cfg raw).map trunc32)

/-- R162: the channel maximum bounds every magnitude of the channel and is one of them (0 for an all-zero one). -/
def Obligations.ChannelMaxIsTheLargestMagnitude : Prop :=
  ∀ xs : List Int,
    (∀ v ∈ xs, v.natAbs ≤ maxAbs xs) ∧ (xs ≠ [] → ∃ v ∈ xs, v.natAbs = maxAbs xs) ∧
    ((∀ v ∈ xs, SampleRange v) → maxAbs xs ≤ 32768)

/-- R186: `bitrev_L(n)` is `n` with its low `L` bits in reverse order, and its own inverse; with the rule's examples. -/
def Obligations.BitReversalReversesTheBits : Prop :=
  (∀ bits n, n < 2 ^ bits → bitrev bits n < 2 ^ bits ∧ bitrev bits (bitrev bits n) = n ∧
    ∀ i, i < bits → (bitrev bits n).testBit i = n.testBit (bits - 1 - i)) ∧
  bitrev 6 1 = 32 ∧ bitrev 6 3 = 48 ∧ bitrev 6 6 = 24 ∧ bitrev 10 1 = 512

/-- R181: the load places sample `n`, shifted left by 6, at `bitrev_L(n)`; each component lies in −2^21 .. 2^21 − 64. -/
def Obligations.LoadPlacesSamplesBitReversed : Prop :=
  ∀ bits c, FrameSamples (2 ^ bits) c →
    (loadBuffer bits c).length = 2 ^ bits ∧
    (∀ n, n < 2 ^ bits →
      (loadBuffer bits c).getD (bitrev bits n) { re := 0, im := 0 } = { re := c.i.getD n 0 * 64, im := c.q.getD n 0 * 64 }) ∧
    (∀ x ∈ loadBuffer bits c, -(2 ^ 21) ≤ x.re ∧ x.re ≤ 2 ^ 21 - 64 ∧ -(2 ^ 21) ≤ x.im ∧ x.im ≤ 2 ^ 21 - 64)

/-- R183: multiplication by `tw(0)` and by `tw(256)` is exact. -/
def Obligations.UnitTwiddlesMultiplyExactly : Prop :=
  ∀ b : Cplx, cmul b 0 = b ∧ cmul b 256 = { re := b.im, im := -b.re }

/-- R185: stage `s` replaces the values at `g + j` and `g + j + h` of every group by the butterfly of the two, twiddle index
`j · 2^(10-s)`, `h = 2^(s-1)`. -/
def Obligations.StageAppliesEveryButterfly : Prop :=
  ∀ (bits s : Nat) (buf : List Cplx), 1 ≤ s → s ≤ bits → bits ≤ 10 → buf.length = 2 ^ bits →
    (stage bits s buf).length = 2 ^ bits ∧
    ∀ g j, g < 2 ^ (bits - s) → j < 2 ^ (s - 1) →
      let z : Cplx := { re := 0, im := 0 }
      let lo := g * 2 ^ s + j
      let hi := lo + 2 ^ (s - 1)
      let r := butterfly (buf.getD lo z) (buf.getD hi z) (j * 2 ^ (10 - s))
      (stage bits s buf).getD lo z = r.1 ∧ (stage bits s buf).getD hi z = r.2

/-- R187: no stored value of the transform exceeds its width: after the load and after every stage every magnitude is below
2967000, every component lies strictly inside −2^22 .. 2^22, and every product of a multiplication fits 41 bits. -/
def Obligations.TransformStaysInItsWidth : Prop :=
  ∀ bits c, 6 ≤ bits → bits ≤ 10 → FrameSamples (2 ^ bits) c → ∀ s, s ≤ bits →
    ∀ x ∈ stages bits s (loadBuffer bits c),
      x.re ^ 2 + x.im ^ 2 < 2967000 ^ 2 ∧ x.small ∧
      ∀ p, p < 512 → (x.re * (twiddle p).re).natAbs < 2 ^ 40 ∧ (x.re * (twiddle p).im).natAbs < 2 ^ 40 ∧
        (x.im * (twiddle p).re).natAbs < 2 ^ 40 ∧ (x.im * (twiddle p).im).natAbs < 2 ^ 40

/-- R185's example, for every size and every constant: a frame of equal windowed samples has that value, times 2^6, in bin 0
and exact zeros elsewhere. -/
def Obligations.ConstantFrameHasOneBin : Prop :=
  ∀ (bits : Nat) (v w : Int), 6 ≤ bits → bits ≤ 10 →
    fft bits { i := List.replicate (2 ^ bits) v, q := List.replicate (2 ^ bits) w } =
      { re := v * 64, im := w * 64 } :: List.replicate (2 ^ bits - 1) { re := 0, im := 0 }

/-- R203: the logarithm is the position of the leading 1 and the ROM entry of the ten bits below it, truncated; exact on
powers of two. -/
def Obligations.LogTakesTenMantissaBits : Prop :=
  (∀ pf e, 2 ^ e ≤ pf → pf < 2 ^ (e + 1) → log2q pf = e * 65536 + logLut (pf * 1024 / 2 ^ e - 1024)) ∧
  (∀ e, log2q (2 ^ e) = e * 65536) ∧ log2q 3 = 103872

/-- R204: every power below 2^44 converts to −32367 .. 1541, and both ends occur. -/
def Obligations.ConverterRangeIsSigned16Bit : Prop :=
  (∀ p, p < 2 ^ 44 → -32367 ≤ dbQ8 (log2q (floorPower p)) ∧ dbQ8 (log2q (floorPower p)) ≤ 1541) ∧
  dbQ8 (log2q (floorPower 0)) = -32367 ∧ dbQ8 (log2q (floorPower (2 ^ 44 - 1))) = 1541

/-- R200, R204, R207, R72: for every legal configuration and every frame of 16-bit samples, the frame gives `N` values, each
in −32367 .. 1541, and each result word is the sign extension of its value. -/
def Obligations.EveryFrameGivesInRangeResults : Prop :=
  ∀ (cfg : ActiveCfg) (c : Channels), cfg.legal → FrameSamples cfg.points c →
    (frameDb cfg c).length = 2 ^ cfg.log2n.toNat ∧
    (∀ x ∈ fft cfg.log2n.toNat (frontEnd cfg c), power x < 2 ^ 44) ∧
    ∀ d ∈ frameDb cfg c, -32367 ≤ d ∧ d ≤ 1541 ∧ (trunc32 d).toInt = d

/-! ### Reset, invariants, whole-machine rules -/

/-- R260: the reset state, register by register as the Host reads it, and what the reset input does to the block in any
state. What lies outside the block is `CommandsLeaveTheSurroundings`'s. -/
def Obligations.ResetGivesTheSpecsState : Prop :=
  ([Reg.id, .version, .ctrl, .dispWidth, .clipThresh, .cmd, .status, .activeCfg, .irqStatus, .irqEnable, .maxI, .maxQ,
      .clipCount, .frameCount, .errInfo, .errCmd].map State.reset.readReg =
    [0x46465431, 0x00010000, 0x0A, 0x400, 0x7D00, 0, 0, 0x0A, 0, 0, 0, 0, 0, 0, 0, 0]) ∧
  State.reset.irq = false ∧ State.reset.run.state = .idle ∧ State.reset.run.inBank = 0 ∧ State.reset.run.outBank = 0 ∧
  State.reset.run.thresh = 32000 ∧ State.reset.run.cfg = State.reset.activeCfg ∧
  (∀ a, State.reset.mem.readByte a = none) ∧
  exec .configure State.reset = .next State.reset ∧
  (∀ (s : State) (rest : List Turn), s.turns = .reset :: rest →
    ∃ t, step s = .next t ∧ t = { State.reset with
      hazards := t.hazards, draws := t.draws, host := t.host, turns := t.turns, rdata := t.rdata })

/-- The model's choice, no rule of the spec (log 8, 14): what lies outside the block (the Host's transactions, the schedule,
the delivered word, the sticky hazard record) is left alone by every command and by the reset input, which draws no free
value either. -/
def Obligations.CommandsLeaveTheSurroundings : Prop :=
  (∀ (i : Instr) (s : State), ∃ t, exec i s = .next t ∧
    t.host = s.host ∧ t.turns = s.turns ∧ t.rdata = s.rdata ∧ t.hazards = s.hazards) ∧
  (∀ s : State, s.resetInput = { State.reset with
    hazards := s.hazards, draws := s.draws, host := s.host, turns := s.turns, rdata := s.rdata })

/-- The invariant `Inv` holds of the reset state. -/
def Obligations.ResetStateHasTheInvariant : Prop := Inv State.reset

/-- Every step from any state that has the invariant `Inv` leads to one that has it: canonical memory of whole words inside
the two RAMs (R60, R62, R73), legal configurations (R29), the running frame's configuration the active one (R39), maxima
and codes in range (R32, R33, R221), hazards on record. -/
def Obligations.EveryStepKeepsTheInvariant : Prop :=
  ∀ s t : State, Inv s → step s = .next t → Inv t

/-- The error record tells the truth: at reset, and after every step from a state where it does (R221, R226). -/
def Obligations.ErrorRecordStaysTrue : Prop :=
  ErrorRecordTrue State.reset ∧ ∀ s t : State, ErrorRecordTrue s → step s = .next t → ErrorRecordTrue t

/-- R29, R28, R39: only `CONFIGURE`, `SOFT_RESET` and reset change `ACTIVE_CFG`; only `PROCESS` starts a frame; only its
completion, `ABORT`, `SOFT_RESET` and reset end one. -/
def Obligations.OnlyCommandsConfigureAndStart : Prop :=
  ∀ s t : State, step s = .next t →
    (t.activeCfg ≠ s.activeCfg → s.dueTurn = .reset ∨ IssuesOneOf s [.configure, .softReset]) ∧
    (s.run.state = .idle → t.run.state = .busy →
      IssuesOneOf s [.process 0 0, .process 0 1, .process 1 0, .process 1 1]) ∧
    (s.run.state = .busy → t.run.state = .idle →
      TakesCompletion s ∨ s.dueTurn = .reset ∨ IssuesOneOf s [.abort, .softReset])

/-- R32 to R35: the maxima and the frame counter change only at a completion, `SOFT_RESET` or reset; the clip
counter also at `CLIP_CLR` and `CLIP_DEC`; every frame counted is one completion. -/
def Obligations.StatisticsChangeOnlyAtCompletion : Prop :=
  ∀ s t : State, step s = .next t →
    ((t.maxI ≠ s.maxI ∨ t.maxQ ≠ s.maxQ ∨ t.frameCount ≠ s.frameCount) →
      TakesCompletion s ∨ s.dueTurn = .reset ∨ IssuesOneOf s [.softReset]) ∧
    (t.clipCount ≠ s.clipCount →
      TakesCompletion s ∨ s.dueTurn = .reset ∨ IssuesOneOf s [.softReset, .clipClr, .clipDec]) ∧
    (TakesCompletion s → t.frameCount = s.frameCount + 1)

/-- R71: sample RAM is written only by the Host (and loses its content at reset): a byte that changes was stored by the
host write of its word. -/
def Obligations.SampleRamIsWrittenByTheHostOnly : Prop :=
  ∀ (s t : State) (a : Nat), step s = .next t → a < 0x3000 → t.mem.readByte a ≠ s.mem.readByte a →
    s.dueTurn = .reset ∨
    ∃ o v rest b n, s.dueTurn = .host ∧ s.host = .write o v :: rest ∧ target o = .sram b n ∧
      sramAddr b n ≤ a ∧ a < sramAddr b n + 4

/-- R281, R91: from a running frame whose samples are written, under every schedule without a reset, the Host's `WAITIDLE`
loop ends within two steps more than the schedule is long, and then exactly one frame more is counted and DONE is set; a
`WAITDONE` loop ends within the same bound. The schedule as a list, with its fair end, is the model's (log 1, 12). -/
def Obligations.FairScheduleEndsTheWaitLoops : Prop :=
  ∀ s : State, Inv s → s.run.state = .busy → fetchWords s.mem s.run.inBank s.frameSize ≠ none →
    (∀ u ∈ s.turns, u ≠ .reset) →
    (expandStmt .waitIdle = some s.host →
      ∃ k t, k ≤ s.turns.length + 2 ∧ Host.Core.run Sys2Proof.core k s = .next t ∧ t.host = [] ∧
        t.run.state = .idle ∧ t.frameCount = s.frameCount + 1 ∧ t.irqStatus.getLsbD 0 = true) ∧
    (expandStmt .waitDone = some s.host →
      ∃ k t, k ≤ s.turns.length + 2 ∧ Host.Core.run Sys2Proof.core k s = .next t ∧ t.host = [] ∧
        t.irqStatus.getLsbD 0 = true)
end

