-- ==== Sys2Proof/Laws/Memory.lean ====
section
/-! SUPPORT. RAM: a read after a write, the frame of a write, and the canonical form, for bytes, words and runs of words. -/
namespace Sys2Proof.Machine

/-! ### Bytes -/

@[simp] theorem Memory.readByte_nil (a : Nat) : Memory.readByte [] a = none := rfl

@[simp] theorem Memory.readByte_writeByte_self (m : Memory) (a : Nat) (v : Byte) :
    (m.writeByte a v).readByte a = some v := by
  induction m with
  | nil => simp [Memory.writeByte, Memory.readByte]
  | cons c rest ih =>
    obtain ⟨x, u⟩ := c
    unfold Memory.writeByte
    split
    · simp [Memory.readByte]
    · split
      · simp [Memory.readByte]
      · rename_i h1 h2
        simp only [Memory.readByte]
        rw [if_neg (Ne.symm h2)]
        exact ih

theorem Memory.readByte_writeByte_ne (m : Memory) {a b : Nat} (v : Byte) (h : b ≠ a) :
    (m.writeByte a v).readByte b = m.readByte b := by
  induction m with
  | nil => simp [Memory.writeByte, Memory.readByte, Ne.symm h]
  | cons c rest ih =>
    obtain ⟨x, u⟩ := c
    unfold Memory.writeByte
    split
    · simp [Memory.readByte, Ne.symm h]
    · split
      · rename_i h2
        subst h2
        simp [Memory.readByte, Ne.symm h]
      · simp only [Memory.readByte]
        split
        · rfl
        · exact ih

theorem Memory.readByte_writeByte (m : Memory) (a b : Nat) (v : Byte) :
    (m.writeByte a v).readByte b = if b = a then some v else m.readByte b := by
  split
  · rename_i h; subst h; simp
  · rename_i h; exact Memory.readByte_writeByte_ne m v h

/-- An entry after a write is the new one or an old one. -/
theorem Memory.mem_writeByte {m : Memory} {a : Nat} {v : Byte} {c : Host.Cell} (h : c ∈ m.writeByte a v) :
    c = (a, v) ∨ c ∈ m := by
  induction m with
  | nil => simpa [Memory.writeByte] using h
  | cons d rest ih =>
    obtain ⟨x, u⟩ := d
    unfold Memory.writeByte at h
    split at h
    · simpa using h
    · split at h
      · rcases List.mem_cons.mp h with h | h
        · exact .inl h
        · exact .inr (List.mem_cons_of_mem _ h)
      · rcases List.mem_cons.mp h with h | h
        · exact .inr (h ▸ List.mem_cons_self)
        · exact (ih h).imp id (List.mem_cons_of_mem _)

/-! ### The canonical form -/

/-- A memory all of whose addresses lie above `a` at its head. -/
def Memory.headAbove (a : Nat) : Memory → Bool
  | [] => true
  | (b, _) :: _ => decide (a < b)

theorem Memory.wf_cons (a : Nat) (v : Byte) (m : Memory) :
    Memory.wf ((a, v) :: m) = (Memory.headAbove a m && Memory.wf m) := by
  cases m with
  | nil => rfl
  | cons c rest => rfl

theorem Memory.headAbove_writeByte {x a : Nat} {v : Byte} {m : Memory} (hx : x < a) (h : Memory.headAbove x m = true) :
    Memory.headAbove x (m.writeByte a v) = true := by
  cases m with
  | nil => simpa [Memory.writeByte, Memory.headAbove] using hx
  | cons c rest =>
    obtain ⟨y, u⟩ := c
    unfold Memory.writeByte
    split
    · simpa [Memory.headAbove] using hx
    · split
      · simpa [Memory.headAbove] using hx
      · simpa [Memory.headAbove] using h

theorem Memory.wf_writeByte {m : Memory} (a : Nat) (v : Byte) (h : m.wf = true) : (m.writeByte a v).wf = true := by
  induction m with
  | nil => rfl
  | cons c rest ih =>
    obtain ⟨x, u⟩ := c
    have h' := h
    rw [Memory.wf_cons, Bool.and_eq_true] at h'
    unfold Memory.writeByte
    split
    · rename_i hlt
      rw [Memory.wf_cons, Bool.and_eq_true]
      exact ⟨by simpa [Memory.headAbove] using hlt, h⟩
    · split
      · rename_i heq
        subst heq
        rw [Memory.wf_cons, Bool.and_eq_true]
        exact h'
      · rename_i h1 h2
        rw [Memory.wf_cons, Bool.and_eq_true]
        exact ⟨Memory.headAbove_writeByte (by omega) h'.1, ih h'.2⟩

/-! ### Words -/

theorem Memory.readByte_writeWord (m : Memory) (a b : Nat) (w : Word) :
    (m.writeWord a w).readByte b =
      if b = a + 3 then some (byteLane w 3) else if b = a + 2 then some (byteLane w 2)
      else if b = a + 1 then some (byteLane w 1) else if b = a then some (byteLane w 0) else m.readByte b := by
  simp only [Memory.writeWord, Memory.readByte_writeByte]

/-- A word store leaves every byte outside its four alone. -/
theorem Memory.readByte_writeWord_outside (m : Memory) {a b : Nat} (w : Word) (h : b < a ∨ a + 4 ≤ b) :
    (m.writeWord a w).readByte b = m.readByte b := by
  rw [Memory.readByte_writeWord]
  split <;> try omega
  split <;> try omega
  split <;> try omega
  split <;> try omega
  rfl

theorem wordOfLanes_byteLane (w : Word) :
    wordOfLanes (byteLane w 0) (byteLane w 1) (byteLane w 2) (byteLane w 3) = w := by
  apply BitVec.eq_of_getLsbD_eq
  intro i hi
  simp only [wordOfLanes, byteLane, BitVec.getLsbD_append, BitVec.getLsbD_extractLsb']
  interval_cases i <;> simp

@[simp] theorem Memory.readWord_writeWord_self (m : Memory) (a : Nat) (w : Word) :
    (m.writeWord a w).readWord a = some w := by
  simp [Memory.readWord, Memory.readByte_writeWord, wordOfLanes_byteLane]

/-- A word reads as before when a store elsewhere does not overlap it. -/
theorem Memory.readWord_writeWord_disjoint (m : Memory) {a b : Nat} (w : Word) (h : b + 4 ≤ a ∨ a + 4 ≤ b) :
    (m.writeWord a w).readWord b = m.readWord b := by
  have e : ∀ i, i < 4 → (m.writeWord a w).readByte (b + i) = m.readByte (b + i) :=
    fun i hi => Memory.readByte_writeWord_outside m w (by omega)
  have e0 := e 0 (by omega)
  simp only [Nat.add_zero] at e0
  simp only [Memory.readWord, e0, e 1 (by omega), e 2 (by omega), e 3 (by omega)]

/-- Equal bytes make equal words. -/
theorem Memory.readWord_congr {m m' : Memory} {a : Nat} (h : ∀ i, i < 4 → m.readByte (a + i) = m'.readByte (a + i)) :
    m.readWord a = m'.readWord a := by
  have h0 := h 0 (by omega)
  simp only [Nat.add_zero] at h0
  simp only [Memory.readWord, h0, h 1 (by omega), h 2 (by omega), h 3 (by omega)]

theorem Memory.wf_writeWord {m : Memory} (a : Nat) (w : Word) (h : m.wf = true) : (m.writeWord a w).wf = true :=
  Memory.wf_writeByte _ _ (Memory.wf_writeByte _ _ (Memory.wf_writeByte _ _ (Memory.wf_writeByte _ _ h)))

/-- An entry after a word store is one of its four bytes or an old one. -/
theorem Memory.mem_writeWord {m : Memory} {a : Nat} {w : Word} {c : Host.Cell} (h : c ∈ m.writeWord a w) :
    (a ≤ c.1 ∧ c.1 < a + 4) ∨ c ∈ m := by
  rcases Memory.mem_writeByte h with rfl | h
  · left; simp
  rcases Memory.mem_writeByte h with rfl | h
  · left; simp
  rcases Memory.mem_writeByte h with rfl | h
  · left; simp
  rcases Memory.mem_writeByte h with rfl | h
  · left; simp
  exact .inr h

/-! ### Runs of words -/

theorem Memory.writeWords_nil (m : Memory) (a : Nat) : m.writeWords a [] = m := rfl

theorem Memory.writeWords_cons (m : Memory) (a : Nat) (w : Word) (ws : List Word) :
    m.writeWords a (w :: ws) = (m.writeWord a w).writeWords (a + 4) ws := rfl

/-- A run of word stores leaves every byte outside it alone. -/
theorem Memory.readByte_writeWords_outside (ws : List Word) : ∀ (m : Memory) (a b : Nat),
    (b < a ∨ a + 4 * ws.length ≤ b) → (m.writeWords a ws).readByte b = m.readByte b := by
  induction ws with
  | nil => intro m a b _; rfl
  | cons w ws ih =>
    intro m a b h
    rw [List.length_cons] at h
    rw [Memory.writeWords_cons, ih _ _ _ (by omega), Memory.readByte_writeWord_outside _ _ (by omega)]

/-- Word `k` of a run reads as stored. -/
theorem Memory.readWord_writeWords (ws : List Word) : ∀ (m : Memory) (a k : Nat) (h : k < ws.length),
    (m.writeWords a ws).readWord (a + 4 * k) = some ws[k] := by
  induction ws with
  | nil => intro m a k h; simp at h
  | cons w ws ih =>
    intro m a k h
    rw [Memory.writeWords_cons]
    cases k with
    | zero =>
      simp only [Nat.mul_zero, Nat.add_zero, List.getElem_cons_zero]
      rw [← Memory.readWord_writeWord_self m a w]
      exact Memory.readWord_congr fun i hi => Memory.readByte_writeWords_outside ws _ _ _ (by omega)
    | succ k =>
      rw [List.length_cons] at h
      have := ih (m.writeWord a w) (a + 4) k (by omega)
      rw [show a + 4 * (k + 1) = a + 4 + 4 * k by omega, this]
      rfl

theorem Memory.wf_writeWords (ws : List Word) : ∀ (m : Memory) (a : Nat), m.wf = true → (m.writeWords a ws).wf = true := by
  induction ws with
  | nil => intro m a h; exact h
  | cons w ws ih => intro m a h; exact ih _ _ (Memory.wf_writeWord a w h)

/-- An entry after a run of word stores lies in the run or is an old one. -/
theorem Memory.mem_writeWords {c : Host.Cell} (ws : List Word) : ∀ (m : Memory) (a : Nat), c ∈ m.writeWords a ws →
    (a ≤ c.1 ∧ c.1 < a + 4 * ws.length) ∨ c ∈ m := by
  induction ws with
  | nil => intro m a h; exact .inr h
  | cons w ws ih =>
    intro m a h
    rw [List.length_cons]
    rcases ih _ _ h with h | h
    · left; omega
    · rcases Memory.mem_writeWord h with h | h
      · left; omega
      · exact .inr h

/-- What reading a run answers: word `k` is the word at `a + 4k`. -/
theorem Memory.readWords_eq_some (n : Nat) : ∀ (m : Memory) (a : Nat) (ws : List Word),
    m.readWords a n = some ws ↔ ws.length = n ∧ ∀ k (h : k < ws.length), m.readWord (a + 4 * k) = some ws[k] := by
  induction n with
  | zero =>
    intro m a ws
    simp only [Memory.readWords, Option.some.injEq]
    constructor
    · rintro rfl; simp
    · rintro ⟨h, _⟩; exact (List.length_eq_zero_iff.mp h).symm
  | succ n ih =>
    intro m a ws
    simp only [Memory.readWords]
    constructor
    · intro h
      split at h
      · rename_i w vs hw hvs
        obtain ⟨hl, hk⟩ := (ih m (a + 4) vs).mp hvs
        cases h
        refine ⟨by simp [hl], fun k hk' => ?_⟩
        cases k with
        | zero => simpa using hw
        | succ k =>
          have := hk k (by simpa using hk')
          rw [show a + 4 * (k + 1) = a + 4 + 4 * k by omega]
          simpa using this
      · cases h
    · rintro ⟨hl, hk⟩
      cases ws with
      | nil => simp at hl
      | cons w vs =>
        have hw := hk 0 (by simp)
        have hvs : m.readWords (a + 4) n = some vs := by
          refine (ih m (a + 4) vs).mpr ⟨by simpa using hl, fun k hk' => ?_⟩
          have := hk (k + 1) (by simpa using hk')
          rw [show a + 4 + 4 * k = a + 4 * (k + 1) by omega]
          simpa using this
        simp only [Nat.mul_zero, Nat.add_zero, List.getElem_cons_zero] at hw
        rw [hw, hvs]

/-- A run is answered exactly when every word of it has been written. -/
theorem Memory.readWords_eq_none (n : Nat) : ∀ (m : Memory) (a : Nat),
    m.readWords a n = none ↔ ∃ k, k < n ∧ m.readWord (a + 4 * k) = none := by
  induction n with
  | zero => intro m a; simp [Memory.readWords]
  | succ n ih =>
    intro m a
    simp only [Memory.readWords]
    constructor
    · intro h
      split at h
      · cases h
      · rename_i hno
        cases hw : m.readWord a with
        | none => exact ⟨0, by omega, by simpa using hw⟩
        | some w =>
          cases hvs : Memory.readWords m (a + 4) n with
          | some vs => exact absurd hvs (hno w vs hw)
          | none =>
            obtain ⟨k, hk, hr⟩ := (ih m (a + 4)).mp hvs
            exact ⟨k + 1, by omega, by rw [show a + 4 * (k + 1) = a + 4 + 4 * k by omega]; exact hr⟩
    · rintro ⟨k, hk, hr⟩
      split
      · rename_i w vs hw hvs
        exfalso
        obtain ⟨hl, hall⟩ := (Memory.readWords_eq_some n m (a + 4) vs).mp hvs
        cases k with
        | zero => simp only [Nat.mul_zero, Nat.add_zero] at hr; rw [hr] at hw; cases hw
        | succ k =>
          have := hall k (by omega)
          rw [show a + 4 + 4 * k = a + 4 * (k + 1) by omega, hr] at this
          cases this
      · rfl

/-- Two memories that agree on the bytes of a run answer it alike. -/
theorem Memory.readWords_congr {m m' : Memory} (n : Nat) : ∀ (a : Nat),
    (∀ b, a ≤ b → b < a + 4 * n → m.readByte b = m'.readByte b) → m.readWords a n = m'.readWords a n := by
  induction n with
  | zero => intro a _; rfl
  | succ n ih =>
    intro a h
    have hw : m.readWord a = m'.readWord a := Memory.readWord_congr fun i hi => h _ (by omega) (by omega)
    have hs : m.readWords (a + 4) n = m'.readWords (a + 4) n := ih (a + 4) fun b h1 h2 => h b (by omega) (by omega)
    simp only [Memory.readWords, hw, hs]

/-! ### RAM is written by whole words (20_memory.md R62) -/

/-- Every byte is written exactly when the first byte of its word is. -/
def Memory.WholeWords (m : Memory) : Prop := ∀ a, (m.readByte a).isSome = (m.readByte (4 * (a / 4))).isSome

theorem Memory.wholeWords_nil : Memory.WholeWords [] := fun _ => rfl

theorem Memory.wholeWords_writeWord {m : Memory} {a : Nat} (w : Word) (ha : a % 4 = 0) (h : m.WholeWords) :
    (m.writeWord a w).WholeWords := by
  intro b
  by_cases hb : b < a ∨ a + 4 ≤ b
  · rw [Memory.readByte_writeWord_outside m w hb, Memory.readByte_writeWord_outside m w (by omega)]
    exact h b
  · have e : 4 * (b / 4) = a := by omega
    rw [e, Memory.readByte_writeWord, Memory.readByte_writeWord]
    split
    · simp
    · split
      · simp
      · split
        · simp
        · split
          · simp
          · omega

theorem Memory.wholeWords_writeWords (ws : List Word) : ∀ (m : Memory) (a : Nat), a % 4 = 0 → m.WholeWords →
    (m.writeWords a ws).WholeWords := by
  induction ws with
  | nil => intro m a _ h; exact h
  | cons w ws ih => intro m a ha h; exact ih _ _ (by omega) (Memory.wholeWords_writeWord w ha h)

/-! ### The two RAMs lie apart (20_memory.md R60) -/

theorem sramAddr_bounds (b : Bank) {n : Nat} (h : n < 1024) : 0x1000 ≤ sramAddr b n ∧ sramAddr b n + 4 ≤ 0x3000 := by
  have := b.isLt
  unfold sramAddr
  omega

theorem rramAddr_bounds (b : Bank) {n : Nat} (h : n < 1024) : 0x3000 ≤ rramAddr b n ∧ rramAddr b n + 4 ≤ 0x5000 := by
  have := b.isLt
  unfold rramAddr
  omega

theorem sramAddr_eq (b : Bank) (n : Nat) : sramAddr b n = sramAddr b 0 + 4 * n := by unfold sramAddr; omega

theorem rramAddr_eq (b : Bank) (n : Nat) : rramAddr b n = rramAddr b 0 + 4 * n := by unfold rramAddr; omega

/-- Reset leaves nothing written, in canonical form. -/
theorem reset_mem_wf : State.reset.mem.wf = true := rfl

end Sys2Proof.Machine
end

