-- ==== Sys2Proof/Laws/State.lean ====
section
/-! SUPPORT. What each shared update does to each field: one lemma per field per update, so that no proof unfolds a record
update. -/
namespace Sys2Proof.Machine

/-! ### The rejection of a command -/

@[simp] theorem State.reject_ctrl (s : State) (e : CmdError) (w : Word) : (s.reject e w).ctrl = s.ctrl := rfl

@[simp] theorem State.reject_dispWidth (s : State) (e : CmdError) (w : Word) :
    (s.reject e w).dispWidth = s.dispWidth := rfl

@[simp] theorem State.reject_clipThresh (s : State) (e : CmdError) (w : Word) :
    (s.reject e w).clipThresh = s.clipThresh := rfl

@[simp] theorem State.reject_activeCfg (s : State) (e : CmdError) (w : Word) :
    (s.reject e w).activeCfg = s.activeCfg := rfl

@[simp] theorem State.reject_irqStatus (s : State) (e : CmdError) (w : Word) :
    (s.reject e w).irqStatus = raiseFlag s.irqStatus flagCmdErr := rfl

@[simp] theorem State.reject_irqEnable (s : State) (e : CmdError) (w : Word) :
    (s.reject e w).irqEnable = s.irqEnable := rfl

@[simp] theorem State.reject_maxI (s : State) (e : CmdError) (w : Word) : (s.reject e w).maxI = s.maxI := rfl

@[simp] theorem State.reject_maxQ (s : State) (e : CmdError) (w : Word) : (s.reject e w).maxQ = s.maxQ := rfl

@[simp] theorem State.reject_clipCount (s : State) (e : CmdError) (w : Word) :
    (s.reject e w).clipCount = s.clipCount := rfl

@[simp] theorem State.reject_frameCount (s : State) (e : CmdError) (w : Word) :
    (s.reject e w).frameCount = s.frameCount := rfl

@[simp] theorem State.reject_errCode (s : State) (e : CmdError) (w : Word) : (s.reject e w).errCode = errorCode e := rfl

@[simp] theorem State.reject_errCmd (s : State) (e : CmdError) (w : Word) : (s.reject e w).errCmd = w := rfl

@[simp] theorem State.reject_run (s : State) (e : CmdError) (w : Word) : (s.reject e w).run = s.run := rfl

@[simp] theorem State.reject_mem (s : State) (e : CmdError) (w : Word) : (s.reject e w).mem = s.mem := rfl

@[simp] theorem State.reject_hazards (s : State) (e : CmdError) (w : Word) : (s.reject e w).hazards = s.hazards := rfl

@[simp] theorem State.reject_frameHazard (s : State) (e : CmdError) (w : Word) :
    (s.reject e w).frameHazard = s.frameHazard := rfl

@[simp] theorem State.reject_draws (s : State) (e : CmdError) (w : Word) : (s.reject e w).draws = s.draws := rfl

@[simp] theorem State.reject_host (s : State) (e : CmdError) (w : Word) : (s.reject e w).host = s.host := rfl

@[simp] theorem State.reject_turns (s : State) (e : CmdError) (w : Word) : (s.reject e w).turns = s.turns := rfl

@[simp] theorem State.reject_rdata (s : State) (e : CmdError) (w : Word) : (s.reject e w).rdata = s.rdata := rfl

/-! ### The acknowledgement -/

@[simp] theorem State.ack_ctrl (s : State) (w : Word) : (s.ack w).ctrl = s.ctrl := rfl

@[simp] theorem State.ack_dispWidth (s : State) (w : Word) : (s.ack w).dispWidth = s.dispWidth := rfl

@[simp] theorem State.ack_clipThresh (s : State) (w : Word) : (s.ack w).clipThresh = s.clipThresh := rfl

@[simp] theorem State.ack_activeCfg (s : State) (w : Word) : (s.ack w).activeCfg = s.activeCfg := rfl

@[simp] theorem State.ack_irqStatus (s : State) (w : Word) : (s.ack w).irqStatus = ackFlags s.irqStatus w := rfl

@[simp] theorem State.ack_irqEnable (s : State) (w : Word) : (s.ack w).irqEnable = s.irqEnable := rfl

@[simp] theorem State.ack_maxI (s : State) (w : Word) : (s.ack w).maxI = s.maxI := rfl

@[simp] theorem State.ack_maxQ (s : State) (w : Word) : (s.ack w).maxQ = s.maxQ := rfl

@[simp] theorem State.ack_clipCount (s : State) (w : Word) : (s.ack w).clipCount = s.clipCount := rfl

@[simp] theorem State.ack_frameCount (s : State) (w : Word) : (s.ack w).frameCount = s.frameCount := rfl

@[simp] theorem State.ack_errCode (s : State) (w : Word) : (s.ack w).errCode = s.errCode := rfl

@[simp] theorem State.ack_errCmd (s : State) (w : Word) : (s.ack w).errCmd = s.errCmd := rfl

@[simp] theorem State.ack_run (s : State) (w : Word) : (s.ack w).run = s.run := rfl

@[simp] theorem State.ack_mem (s : State) (w : Word) : (s.ack w).mem = s.mem := rfl

@[simp] theorem State.ack_hazards (s : State) (w : Word) : (s.ack w).hazards = s.hazards := rfl

@[simp] theorem State.ack_frameHazard (s : State) (w : Word) : (s.ack w).frameHazard = s.frameHazard := rfl

@[simp] theorem State.ack_draws (s : State) (w : Word) : (s.ack w).draws = s.draws := rfl

@[simp] theorem State.ack_host (s : State) (w : Word) : (s.ack w).host = s.host := rfl

@[simp] theorem State.ack_turns (s : State) (w : Word) : (s.ack w).turns = s.turns := rfl

@[simp] theorem State.ack_rdata (s : State) (w : Word) : (s.ack w).rdata = s.rdata := rfl

/-! ### The registers at reset -/

@[simp] theorem State.resetRegisters_ctrl (s : State) : (s.resetRegisters).ctrl = State.reset.ctrl := rfl

@[simp] theorem State.resetRegisters_dispWidth (s : State) : (s.resetRegisters).dispWidth = State.reset.dispWidth := rfl

@[simp] theorem State.resetRegisters_clipThresh (s : State) :
    (s.resetRegisters).clipThresh = State.reset.clipThresh := rfl

@[simp] theorem State.resetRegisters_activeCfg (s : State) : (s.resetRegisters).activeCfg = State.reset.activeCfg := rfl

@[simp] theorem State.resetRegisters_irqStatus (s : State) : (s.resetRegisters).irqStatus = State.reset.irqStatus := rfl

@[simp] theorem State.resetRegisters_irqEnable (s : State) : (s.resetRegisters).irqEnable = State.reset.irqEnable := rfl

@[simp] theorem State.resetRegisters_maxI (s : State) : (s.resetRegisters).maxI = State.reset.maxI := rfl

@[simp] theorem State.resetRegisters_maxQ (s : State) : (s.resetRegisters).maxQ = State.reset.maxQ := rfl

@[simp] theorem State.resetRegisters_clipCount (s : State) : (s.resetRegisters).clipCount = State.reset.clipCount := rfl

@[simp] theorem State.resetRegisters_frameCount (s : State) :
    (s.resetRegisters).frameCount = State.reset.frameCount := rfl

@[simp] theorem State.resetRegisters_errCode (s : State) : (s.resetRegisters).errCode = State.reset.errCode := rfl

@[simp] theorem State.resetRegisters_errCmd (s : State) : (s.resetRegisters).errCmd = State.reset.errCmd := rfl

@[simp] theorem State.resetRegisters_run (s : State) : (s.resetRegisters).run = State.reset.run := rfl

@[simp] theorem State.resetRegisters_mem (s : State) : (s.resetRegisters).mem = s.mem := rfl

@[simp] theorem State.resetRegisters_hazards (s : State) : (s.resetRegisters).hazards = s.hazards := rfl

@[simp] theorem State.resetRegisters_frameHazard (s : State) :
    (s.resetRegisters).frameHazard = State.reset.frameHazard := rfl

@[simp] theorem State.resetRegisters_draws (s : State) : (s.resetRegisters).draws = s.draws := rfl

@[simp] theorem State.resetRegisters_host (s : State) : (s.resetRegisters).host = s.host := rfl

@[simp] theorem State.resetRegisters_turns (s : State) : (s.resetRegisters).turns = s.turns := rfl

@[simp] theorem State.resetRegisters_rdata (s : State) : (s.resetRegisters).rdata = s.rdata := rfl

/-! ### The reset input -/

@[simp] theorem State.resetInput_ctrl (s : State) : (s.resetInput).ctrl = State.reset.ctrl := rfl

@[simp] theorem State.resetInput_dispWidth (s : State) : (s.resetInput).dispWidth = State.reset.dispWidth := rfl

@[simp] theorem State.resetInput_clipThresh (s : State) : (s.resetInput).clipThresh = State.reset.clipThresh := rfl

@[simp] theorem State.resetInput_activeCfg (s : State) : (s.resetInput).activeCfg = State.reset.activeCfg := rfl

@[simp] theorem State.resetInput_irqStatus (s : State) : (s.resetInput).irqStatus = State.reset.irqStatus := rfl

@[simp] theorem State.resetInput_irqEnable (s : State) : (s.resetInput).irqEnable = State.reset.irqEnable := rfl

@[simp] theorem State.resetInput_maxI (s : State) : (s.resetInput).maxI = State.reset.maxI := rfl

@[simp] theorem State.resetInput_maxQ (s : State) : (s.resetInput).maxQ = State.reset.maxQ := rfl

@[simp] theorem State.resetInput_clipCount (s : State) : (s.resetInput).clipCount = State.reset.clipCount := rfl

@[simp] theorem State.resetInput_frameCount (s : State) : (s.resetInput).frameCount = State.reset.frameCount := rfl

@[simp] theorem State.resetInput_errCode (s : State) : (s.resetInput).errCode = State.reset.errCode := rfl

@[simp] theorem State.resetInput_errCmd (s : State) : (s.resetInput).errCmd = State.reset.errCmd := rfl

@[simp] theorem State.resetInput_run (s : State) : (s.resetInput).run = State.reset.run := rfl

@[simp] theorem State.resetInput_mem (s : State) : (s.resetInput).mem = State.reset.mem := rfl

@[simp] theorem State.resetInput_hazards (s : State) : (s.resetInput).hazards = s.hazards := rfl

@[simp] theorem State.resetInput_frameHazard (s : State) : (s.resetInput).frameHazard = State.reset.frameHazard := rfl

@[simp] theorem State.resetInput_draws (s : State) : (s.resetInput).draws = s.draws := rfl

@[simp] theorem State.resetInput_host (s : State) : (s.resetInput).host = s.host := rfl

@[simp] theorem State.resetInput_turns (s : State) : (s.resetInput).turns = s.turns := rfl

@[simp] theorem State.resetInput_rdata (s : State) : (s.resetInput).rdata = s.rdata := rfl

/-! ### The delivery of a read -/

@[simp] theorem State.deliver_ctrl (s : State) (w : Word) (d : Nat) : (s.deliver w d).ctrl = s.ctrl := rfl

@[simp] theorem State.deliver_dispWidth (s : State) (w : Word) (d : Nat) :
    (s.deliver w d).dispWidth = s.dispWidth := rfl

@[simp] theorem State.deliver_clipThresh (s : State) (w : Word) (d : Nat) :
    (s.deliver w d).clipThresh = s.clipThresh := rfl

@[simp] theorem State.deliver_activeCfg (s : State) (w : Word) (d : Nat) :
    (s.deliver w d).activeCfg = s.activeCfg := rfl

@[simp] theorem State.deliver_irqStatus (s : State) (w : Word) (d : Nat) :
    (s.deliver w d).irqStatus = s.irqStatus := rfl

@[simp] theorem State.deliver_irqEnable (s : State) (w : Word) (d : Nat) :
    (s.deliver w d).irqEnable = s.irqEnable := rfl

@[simp] theorem State.deliver_maxI (s : State) (w : Word) (d : Nat) : (s.deliver w d).maxI = s.maxI := rfl

@[simp] theorem State.deliver_maxQ (s : State) (w : Word) (d : Nat) : (s.deliver w d).maxQ = s.maxQ := rfl

@[simp] theorem State.deliver_clipCount (s : State) (w : Word) (d : Nat) :
    (s.deliver w d).clipCount = s.clipCount := rfl

@[simp] theorem State.deliver_frameCount (s : State) (w : Word) (d : Nat) :
    (s.deliver w d).frameCount = s.frameCount := rfl

@[simp] theorem State.deliver_errCode (s : State) (w : Word) (d : Nat) : (s.deliver w d).errCode = s.errCode := rfl

@[simp] theorem State.deliver_errCmd (s : State) (w : Word) (d : Nat) : (s.deliver w d).errCmd = s.errCmd := rfl

@[simp] theorem State.deliver_run (s : State) (w : Word) (d : Nat) : (s.deliver w d).run = s.run := rfl

@[simp] theorem State.deliver_mem (s : State) (w : Word) (d : Nat) : (s.deliver w d).mem = s.mem := rfl

@[simp] theorem State.deliver_hazards (s : State) (w : Word) (d : Nat) : (s.deliver w d).hazards = s.hazards := rfl

@[simp] theorem State.deliver_frameHazard (s : State) (w : Word) (d : Nat) :
    (s.deliver w d).frameHazard = s.frameHazard := rfl

@[simp] theorem State.deliver_draws (s : State) (w : Word) (d : Nat) : (s.deliver w d).draws = s.draws + d := rfl

@[simp] theorem State.deliver_host (s : State) (w : Word) (d : Nat) : (s.deliver w d).host = s.host := rfl

@[simp] theorem State.deliver_turns (s : State) (w : Word) (d : Nat) : (s.deliver w d).turns = s.turns := rfl

@[simp] theorem State.deliver_rdata (s : State) (w : Word) (d : Nat) : (s.deliver w d).rdata = some w := rfl

/-! ### The commit of a frame -/

@[simp] theorem State.commitFrame_ctrl (s : State) (r : FrameResult) : (s.commitFrame r).ctrl = s.ctrl := rfl

@[simp] theorem State.commitFrame_dispWidth (s : State) (r : FrameResult) :
    (s.commitFrame r).dispWidth = s.dispWidth := rfl

@[simp] theorem State.commitFrame_clipThresh (s : State) (r : FrameResult) :
    (s.commitFrame r).clipThresh = s.clipThresh := rfl

@[simp] theorem State.commitFrame_activeCfg (s : State) (r : FrameResult) :
    (s.commitFrame r).activeCfg = s.activeCfg := rfl

@[simp] theorem State.commitFrame_irqStatus (s : State) (r : FrameResult) :
    (s.commitFrame r).irqStatus = completionFlags s.irqStatus r.clipped := rfl

@[simp] theorem State.commitFrame_irqEnable (s : State) (r : FrameResult) :
    (s.commitFrame r).irqEnable = s.irqEnable := rfl

@[simp] theorem State.commitFrame_maxI (s : State) (r : FrameResult) : (s.commitFrame r).maxI = r.maxI := rfl

@[simp] theorem State.commitFrame_maxQ (s : State) (r : FrameResult) : (s.commitFrame r).maxQ = r.maxQ := rfl

@[simp] theorem State.commitFrame_clipCount (s : State) (r : FrameResult) :
    (s.commitFrame r).clipCount = countClip s.clipCount r.clipped := rfl

@[simp] theorem State.commitFrame_frameCount (s : State) (r : FrameResult) :
    (s.commitFrame r).frameCount = s.frameCount + 1 := rfl

@[simp] theorem State.commitFrame_errCode (s : State) (r : FrameResult) : (s.commitFrame r).errCode = s.errCode := rfl

@[simp] theorem State.commitFrame_errCmd (s : State) (r : FrameResult) : (s.commitFrame r).errCmd = s.errCmd := rfl

@[simp] theorem State.commitFrame_run (s : State) (r : FrameResult) :
    (s.commitFrame r).run = { s.run with state := .idle } := rfl

@[simp] theorem State.commitFrame_mem (s : State) (r : FrameResult) :
    (s.commitFrame r).mem = s.mem.writeWords (rramAddr s.run.outBank 0) r.words := rfl

@[simp] theorem State.commitFrame_hazards (s : State) (r : FrameResult) : (s.commitFrame r).hazards = s.hazards := rfl

@[simp] theorem State.commitFrame_frameHazard (s : State) (r : FrameResult) :
    (s.commitFrame r).frameHazard = FrameHazard.clear := rfl

@[simp] theorem State.commitFrame_draws (s : State) (r : FrameResult) :
    (s.commitFrame r).draws = s.draws + settleDraws s.frameHazard s.frameSize := rfl

@[simp] theorem State.commitFrame_host (s : State) (r : FrameResult) : (s.commitFrame r).host = s.host := rfl

@[simp] theorem State.commitFrame_turns (s : State) (r : FrameResult) : (s.commitFrame r).turns = s.turns := rfl

@[simp] theorem State.commitFrame_rdata (s : State) (r : FrameResult) : (s.commitFrame r).rdata = s.rdata := rfl

/-! ### The discarding of a frame -/

@[simp] theorem State.discardFrame_ctrl (s : State) : (s.discardFrame).ctrl = s.ctrl := by
  unfold State.discardFrame; split <;> rfl

@[simp] theorem State.discardFrame_dispWidth (s : State) : (s.discardFrame).dispWidth = s.dispWidth := by
  unfold State.discardFrame; split <;> rfl

@[simp] theorem State.discardFrame_clipThresh (s : State) : (s.discardFrame).clipThresh = s.clipThresh := by
  unfold State.discardFrame; split <;> rfl

@[simp] theorem State.discardFrame_activeCfg (s : State) : (s.discardFrame).activeCfg = s.activeCfg := by
  unfold State.discardFrame; split <;> rfl

@[simp] theorem State.discardFrame_irqStatus (s : State) : (s.discardFrame).irqStatus = s.irqStatus := by
  unfold State.discardFrame; split <;> rfl

@[simp] theorem State.discardFrame_irqEnable (s : State) : (s.discardFrame).irqEnable = s.irqEnable := by
  unfold State.discardFrame; split <;> rfl

@[simp] theorem State.discardFrame_maxI (s : State) : (s.discardFrame).maxI = s.maxI := by
  unfold State.discardFrame; split <;> rfl

@[simp] theorem State.discardFrame_maxQ (s : State) : (s.discardFrame).maxQ = s.maxQ := by
  unfold State.discardFrame; split <;> rfl

@[simp] theorem State.discardFrame_clipCount (s : State) : (s.discardFrame).clipCount = s.clipCount := by
  unfold State.discardFrame; split <;> rfl

@[simp] theorem State.discardFrame_frameCount (s : State) : (s.discardFrame).frameCount = s.frameCount := by
  unfold State.discardFrame; split <;> rfl

@[simp] theorem State.discardFrame_errCode (s : State) : (s.discardFrame).errCode = s.errCode := by
  unfold State.discardFrame; split <;> rfl

@[simp] theorem State.discardFrame_errCmd (s : State) : (s.discardFrame).errCmd = s.errCmd := by
  unfold State.discardFrame; split <;> rfl

@[simp] theorem State.discardFrame_hazards (s : State) : (s.discardFrame).hazards = s.hazards := by
  unfold State.discardFrame; split <;> rfl

@[simp] theorem State.discardFrame_host (s : State) : (s.discardFrame).host = s.host := by
  unfold State.discardFrame; split <;> rfl

@[simp] theorem State.discardFrame_turns (s : State) : (s.discardFrame).turns = s.turns := by
  unfold State.discardFrame; split <;> rfl

@[simp] theorem State.discardFrame_rdata (s : State) : (s.discardFrame).rdata = s.rdata := by
  unfold State.discardFrame; split <;> rfl

/-! ### A host write of a sample word -/

@[simp] theorem State.writeSample_ctrl (s : State) (b : Bank) (n : Nat) (v : Word) :
    (s.writeSample b n v).ctrl = s.ctrl := by
  simp only [State.writeSample]; split <;> rfl

@[simp] theorem State.writeSample_dispWidth (s : State) (b : Bank) (n : Nat) (v : Word) :
    (s.writeSample b n v).dispWidth = s.dispWidth := by
  simp only [State.writeSample]; split <;> rfl

@[simp] theorem State.writeSample_clipThresh (s : State) (b : Bank) (n : Nat) (v : Word) :
    (s.writeSample b n v).clipThresh = s.clipThresh := by
  simp only [State.writeSample]; split <;> rfl

@[simp] theorem State.writeSample_activeCfg (s : State) (b : Bank) (n : Nat) (v : Word) :
    (s.writeSample b n v).activeCfg = s.activeCfg := by
  simp only [State.writeSample]; split <;> rfl

@[simp] theorem State.writeSample_irqStatus (s : State) (b : Bank) (n : Nat) (v : Word) :
    (s.writeSample b n v).irqStatus = s.irqStatus := by
  simp only [State.writeSample]; split <;> rfl

@[simp] theorem State.writeSample_irqEnable (s : State) (b : Bank) (n : Nat) (v : Word) :
    (s.writeSample b n v).irqEnable = s.irqEnable := by
  simp only [State.writeSample]; split <;> rfl

@[simp] theorem State.writeSample_maxI (s : State) (b : Bank) (n : Nat) (v : Word) :
    (s.writeSample b n v).maxI = s.maxI := by
  simp only [State.writeSample]; split <;> rfl

@[simp] theorem State.writeSample_maxQ (s : State) (b : Bank) (n : Nat) (v : Word) :
    (s.writeSample b n v).maxQ = s.maxQ := by
  simp only [State.writeSample]; split <;> rfl

@[simp] theorem State.writeSample_clipCount (s : State) (b : Bank) (n : Nat) (v : Word) :
    (s.writeSample b n v).clipCount = s.clipCount := by
  simp only [State.writeSample]; split <;> rfl

@[simp] theorem State.writeSample_frameCount (s : State) (b : Bank) (n : Nat) (v : Word) :
    (s.writeSample b n v).frameCount = s.frameCount := by
  simp only [State.writeSample]; split <;> rfl

@[simp] theorem State.writeSample_errCode (s : State) (b : Bank) (n : Nat) (v : Word) :
    (s.writeSample b n v).errCode = s.errCode := by
  simp only [State.writeSample]; split <;> rfl

@[simp] theorem State.writeSample_errCmd (s : State) (b : Bank) (n : Nat) (v : Word) :
    (s.writeSample b n v).errCmd = s.errCmd := by
  simp only [State.writeSample]; split <;> rfl

@[simp] theorem State.writeSample_run (s : State) (b : Bank) (n : Nat) (v : Word) :
    (s.writeSample b n v).run = s.run := by
  simp only [State.writeSample]; split <;> rfl

@[simp] theorem State.writeSample_mem (s : State) (b : Bank) (n : Nat) (v : Word) :
    (s.writeSample b n v).mem = s.mem.writeWord (sramAddr b n) v := by
  simp only [State.writeSample]; split <;> rfl

@[simp] theorem State.writeSample_draws (s : State) (b : Bank) (n : Nat) (v : Word) :
    (s.writeSample b n v).draws = s.draws := by
  simp only [State.writeSample]; split <;> rfl

@[simp] theorem State.writeSample_host (s : State) (b : Bank) (n : Nat) (v : Word) :
    (s.writeSample b n v).host = s.host := by
  simp only [State.writeSample]; split <;> rfl

@[simp] theorem State.writeSample_turns (s : State) (b : Bank) (n : Nat) (v : Word) :
    (s.writeSample b n v).turns = s.turns := by
  simp only [State.writeSample]; split <;> rfl

@[simp] theorem State.writeSample_rdata (s : State) (b : Bank) (n : Nat) (v : Word) :
    (s.writeSample b n v).rdata = s.rdata := by
  simp only [State.writeSample]; split <;> rfl

/-! ### A host write of a result word -/

@[simp] theorem State.writeResult_ctrl (s : State) (b : Bank) (n : Nat) (v : Word) :
    (s.writeResult b n v).ctrl = s.ctrl := by
  simp only [State.writeResult]; split <;> rfl

@[simp] theorem State.writeResult_dispWidth (s : State) (b : Bank) (n : Nat) (v : Word) :
    (s.writeResult b n v).dispWidth = s.dispWidth := by
  simp only [State.writeResult]; split <;> rfl

@[simp] theorem State.writeResult_clipThresh (s : State) (b : Bank) (n : Nat) (v : Word) :
    (s.writeResult b n v).clipThresh = s.clipThresh := by
  simp only [State.writeResult]; split <;> rfl

@[simp] theorem State.writeResult_activeCfg (s : State) (b : Bank) (n : Nat) (v : Word) :
    (s.writeResult b n v).activeCfg = s.activeCfg := by
  simp only [State.writeResult]; split <;> rfl

@[simp] theorem State.writeResult_irqStatus (s : State) (b : Bank) (n : Nat) (v : Word) :
    (s.writeResult b n v).irqStatus = s.irqStatus := by
  simp only [State.writeResult]; split <;> rfl

@[simp] theorem State.writeResult_irqEnable (s : State) (b : Bank) (n : Nat) (v : Word) :
    (s.writeResult b n v).irqEnable = s.irqEnable := by
  simp only [State.writeResult]; split <;> rfl

@[simp] theorem State.writeResult_maxI (s : State) (b : Bank) (n : Nat) (v : Word) :
    (s.writeResult b n v).maxI = s.maxI := by
  simp only [State.writeResult]; split <;> rfl

@[simp] theorem State.writeResult_maxQ (s : State) (b : Bank) (n : Nat) (v : Word) :
    (s.writeResult b n v).maxQ = s.maxQ := by
  simp only [State.writeResult]; split <;> rfl

@[simp] theorem State.writeResult_clipCount (s : State) (b : Bank) (n : Nat) (v : Word) :
    (s.writeResult b n v).clipCount = s.clipCount := by
  simp only [State.writeResult]; split <;> rfl

@[simp] theorem State.writeResult_frameCount (s : State) (b : Bank) (n : Nat) (v : Word) :
    (s.writeResult b n v).frameCount = s.frameCount := by
  simp only [State.writeResult]; split <;> rfl

@[simp] theorem State.writeResult_errCode (s : State) (b : Bank) (n : Nat) (v : Word) :
    (s.writeResult b n v).errCode = s.errCode := by
  simp only [State.writeResult]; split <;> rfl

@[simp] theorem State.writeResult_errCmd (s : State) (b : Bank) (n : Nat) (v : Word) :
    (s.writeResult b n v).errCmd = s.errCmd := by
  simp only [State.writeResult]; split <;> rfl

@[simp] theorem State.writeResult_run (s : State) (b : Bank) (n : Nat) (v : Word) :
    (s.writeResult b n v).run = s.run := by
  simp only [State.writeResult]; split <;> rfl

@[simp] theorem State.writeResult_mem (s : State) (b : Bank) (n : Nat) (v : Word) :
    (s.writeResult b n v).mem = s.mem.writeWord (rramAddr b n) v := by
  simp only [State.writeResult]; split <;> rfl

@[simp] theorem State.writeResult_draws (s : State) (b : Bank) (n : Nat) (v : Word) :
    (s.writeResult b n v).draws = s.draws := by
  simp only [State.writeResult]; split <;> rfl

@[simp] theorem State.writeResult_host (s : State) (b : Bank) (n : Nat) (v : Word) :
    (s.writeResult b n v).host = s.host := by
  simp only [State.writeResult]; split <;> rfl

@[simp] theorem State.writeResult_turns (s : State) (b : Bank) (n : Nat) (v : Word) :
    (s.writeResult b n v).turns = s.turns := by
  simp only [State.writeResult]; split <;> rfl

@[simp] theorem State.writeResult_rdata (s : State) (b : Bank) (n : Nat) (v : Word) :
    (s.writeResult b n v).rdata = s.rdata := by
  simp only [State.writeResult]; split <;> rfl

end Sys2Proof.Machine
end

