-- ==== Sys2Proof/Laws/Ops.lean ====
section
/-! SUPPORT. For each shared operation, once, everything it can do: the lemmas a proof cites instead of unfolding. -/
namespace Sys2Proof.Machine

/-! ### Operands -/

/-- Only selector 3 names no window. -/
theorem winSelOf_eq_none_iff (b : BitVec 2) : winSelOf b = none ↔ b = 3 := by
  revert b; decide

/-- A window's selector names it. -/
theorem winSelOf_winSelBits (w : WinSel) : winSelOf (winSelBits w) = some w := by
  cases w <;> rfl

/-- `clampN` stays in the supported sizes. -/
theorem clampLoop_bounds (width fuel : Nat) : ∀ l, 6 ≤ l → l ≤ 10 →
    6 ≤ clampLoop width fuel l ∧ clampLoop width fuel l ≤ 10 := by
  induction fuel with
  | zero => intro l h1 h2; exact ⟨h1, h2⟩
  | succ f ih =>
    intro l h1 h2
    unfold clampLoop
    split
    · rename_i h
      have : Config.minLog2n = 6 := rfl
      exact ih (l - 1) (by omega) (by omega)
    · exact ⟨h1, h2⟩

/-! ### The address map -/

theorem regAt_regOffset (r : Reg) : regAt (regOffset r) = some r := by cases r <;> rfl

/-- Register offsets are word offsets below 0x040. -/
theorem regOffset_lt (r : Reg) : regOffset r < 0x040 := by cases r <;> decide

/-- Every offset acts on a register, a RAM word, or reserved space, and a RAM word's index is 0 to 1023. -/
theorem target_cases (a : Offset) :
    (∃ r, target a = .reg r ∧ wordOffset a < 0x040) ∨
    (∃ b n, target a = .sram b n ∧ n < 1024 ∧ 0x1000 ≤ wordOffset a ∧ wordOffset a < 0x3000) ∨
    (∃ b n, target a = .rram b n ∧ n < 1024 ∧ 0x3000 ≤ wordOffset a ∧ wordOffset a < 0x5000) ∨
    target a = .reserved := by
  simp only [target]
  split
  · split
    · rename_i h _ r _; exact .inl ⟨r, rfl, h⟩
    · exact .inr (.inr (.inr rfl))
  · split
    · rename_i h
      exact .inr (.inl ⟨_, _, rfl, Nat.mod_lt _ (by decide), h.1, h.2⟩)
    · split
      · rename_i h
        exact .inr (.inr (.inl ⟨_, _, rfl, Nat.mod_lt _ (by decide), h.1, h.2⟩))
      · exact .inr (.inr (.inr rfl))

theorem target_sram_lt {a : Offset} {b : Bank} {n : Nat} (h : target a = .sram b n) : n < 1024 := by
  rcases target_cases a with ⟨r, h', _⟩ | ⟨b', n', h', hn, _⟩ | ⟨b', n', h', _⟩ | h' <;> rw [h] at h' <;> cases h'
  exact hn

theorem target_rram_lt {a : Offset} {b : Bank} {n : Nat} (h : target a = .rram b n) : n < 1024 := by
  rcases target_cases a with ⟨r, h', _⟩ | ⟨b', n', h', _⟩ | ⟨b', n', h', hn, _⟩ | h' <;> rw [h] at h' <;> cases h'
  exact hn

/-! ### The running frame -/

theorem State.discardFrame_of_idle {s : State} (h : s.run.state = .idle) : s.discardFrame = s := by
  unfold State.discardFrame; rw [h]

theorem State.discardFrame_of_busy {s : State} (h : s.run.state = .busy) :
    s.discardFrame =
      { s with
        mem := s.mem.writeWords (rramAddr s.run.outBank 0) (drawnWords s.draws s.frameSize)
        draws := s.draws + s.frameSize
        run := { s.run with state := .idle }
        frameHazard := FrameHazard.clear } := by
  unfold State.discardFrame; rw [h]

@[simp] theorem drawnWords_length (d n : Nat) : (drawnWords d n).length = n := by simp [drawnWords]

theorem drawnWords_getElem (d n k : Nat) (h : k < (drawnWords d n).length) :
    (drawnWords d n)[k] = Config.drawWord (d + k) := by simp [drawnWords]

@[simp] theorem settleWords_length (hz : FrameHazard) (d : Nat) (ws : List Word) : ∀ k,
    (settleWords hz d k ws).length = ws.length := by
  induction ws with
  | nil => intro k; rfl
  | cons w ws ih => intro k; simp [settleWords, ih]

/-- Each word the completion leaves: a draw where a hazard left it open, else the frame's. -/
theorem settleWords_getElem (hz : FrameHazard) (d : Nat) : ∀ (ws : List Word) (k i : Nat)
    (h : i < (settleWords hz d k ws).length) (h' : i < ws.length),
    (settleWords hz d k ws)[i] = if hz.input || hz.output.contains (k + i) then Config.drawWord (d + (k + i)) else ws[i]
  | [], _, _, _, h' => by cases h'
  | _ :: _, _, 0, _, _ => by simp [settleWords]
  | _ :: ws, k, i + 1, h, h' => by
    have ih := settleWords_getElem hz d ws (k + 1) i (by simpa [settleWords] using h) (by simpa using h')
    simp only [settleWords, List.getElem_cons_succ, ih, show k + 1 + i = k + (i + 1) by omega]

/-- The flags a completion leaves, bit by bit. -/
theorem completionFlags_bits (flags : BitVec 3) (clipped : Bool) :
    (completionFlags flags clipped).getLsbD 0 = true ∧ (completionFlags flags clipped).getLsbD 1 = flags.getLsbD 1 ∧
    ((completionFlags flags clipped).getLsbD 2 = true ↔ flags.getLsbD 2 = true ∨ clipped = true) := by
  revert flags clipped
  decide

@[simp] theorem countClip_false (c : Half) : countClip c false = c := rfl

/-- A clipped frame adds one, up to 65535. -/
theorem countClip_true_toNat (c : Half) : (countClip c true).toNat = min (c.toNat + 1) 65535 := by
  have hc := c.isLt
  by_cases h : c = 0xFFFF
  · subst h
    rfl
  · have hn : c.toNat ≠ 65535 := fun h' => h (BitVec.eq_of_toNat_eq h')
    simp only [countClip, Bool.true_and, bne_iff_ne, ne_eq, h, not_false_eq_true, if_true, BitVec.toNat_add]
    rw [Nat.mod_eq_of_lt (by simp; omega)]
    simp
    omega

/-- Without a hazard the words are the frame's. -/
theorem settleWords_clear (d : Nat) (ws : List Word) : ∀ k, settleWords FrameHazard.clear d k ws = ws := by
  induction ws with
  | nil => intro k; rfl
  | cons w ws ih =>
    intro k
    have hi : FrameHazard.clear.input = false := rfl
    have ho : FrameHazard.clear.output = [] := rfl
    simp [settleWords, ih, hi, ho]

/-- Without a hazard a completion gives the frame's result and draws nothing. -/
theorem settle_clear (d : Nat) (r : FrameResult) : settle FrameHazard.clear d r = r := by
  have : FrameHazard.clear.input = false := rfl
  simp [settle, settleWords_clear, this]

@[simp] theorem settleDraws_clear (n : Nat) : settleDraws FrameHazard.clear n = 0 := rfl

/-- What a completion can answer: the fault of an UNWRITTEN input word, or the commit of the frame. -/
theorem State.complete_cases (s : State) :
    (s.complete = .fault .unwrittenRead ∧ fetchWords s.mem s.run.inBank s.frameSize = none) ∨
    (∃ ws, fetchWords s.mem s.run.inBank s.frameSize = some ws ∧
      s.complete = .next (s.commitFrame (settle s.frameHazard s.draws (processFrame s.run.cfg s.run.thresh ws)))) := by
  unfold State.complete
  cases h : fetchWords s.mem s.run.inBank s.frameSize with
  | none => exact .inl ⟨rfl, rfl⟩
  | some ws => exact .inr ⟨ws, rfl, rfl⟩

/-! ### Commands -/

/-- A command never stops the block: its next state is a rejection or its action. -/
theorem execConfigure_cases (s : State) :
    (s.run.state = .busy ∧ execConfigure s = .next (s.reject .busy (encode .configure))) ∨
    (s.run.state = .idle ∧ ctrlWinsel s.ctrl = 3 ∧ execConfigure s = .next (s.reject .badWindow (encode .configure))) ∨
    (∃ win, s.run.state = .idle ∧ winSelOf (ctrlWinsel s.ctrl) = some win ∧
      execConfigure s = .next { s with activeCfg := configured s.ctrl s.dispWidth win }) := by
  unfold execConfigure
  cases hs : s.run.state with
  | busy => exact .inl ⟨rfl, rfl⟩
  | idle =>
    cases hw : winSelOf (ctrlWinsel s.ctrl) with
    | none => exact .inr (.inl ⟨rfl, (winSelOf_eq_none_iff _).mp hw, rfl⟩)
    | some win => exact .inr (.inr ⟨win, rfl, rfl, rfl⟩)

/-- A word issued is rejected by the decoder or run as the command it decodes to. -/
theorem State.issue_cases (s : State) (w : Word) :
    (∃ e, decode w = .illegal e ∧ s.issue w = .next (s.reject e w)) ∨
    (∃ i, decode w = .command i ∧ s.issue w = exec i s) := by
  unfold State.issue
  cases h : decode w with
  | illegal e => exact .inl ⟨e, rfl, rfl⟩
  | command i => exact .inr ⟨i, rfl, rfl⟩

/-! ### Transactions -/

/-- What a host write does, by what it acts on. -/
theorem State.busWrite_cases (s : State) (a : Offset) (v : Word) :
    (∃ r, target a = .reg r ∧ s.busWrite a v = s.writeReg r v) ∨
    (∃ b n, target a = .sram b n ∧ n < 1024 ∧ s.busWrite a v = .next (s.writeSample b n v)) ∨
    (∃ b n, target a = .rram b n ∧ n < 1024 ∧ s.busWrite a v = .next (s.writeResult b n v)) ∨
    (target a = .reserved ∧ s.busWrite a v = .next s) := by
  unfold State.busWrite
  cases h : target a with
  | reg r => exact .inl ⟨r, rfl, rfl⟩
  | sram b n => exact .inr (.inl ⟨b, n, rfl, target_sram_lt h, rfl⟩)
  | rram b n => exact .inr (.inr (.inl ⟨b, n, rfl, target_rram_lt h, rfl⟩))
  | reserved => exact .inr (.inr (.inr ⟨rfl, rfl⟩))

/-- A sample write, hazard or not. -/
theorem State.writeSample_cases (s : State) (b : Bank) (n : Nat) (v : Word) :
    (s.frameReads b n = false ∧ s.writeSample b n v = { s with mem := s.mem.writeWord (sramAddr b n) v }) ∨
    (s.frameReads b n = true ∧ s.writeSample b n v =
      { s with
        mem := s.mem.writeWord (sramAddr b n) v
        hazards := { s.hazards with input := true }
        frameHazard := { s.frameHazard with input := true } }) := by
  unfold State.writeSample
  cases h : s.frameReads b n with
  | true => exact .inr ⟨rfl, rfl⟩
  | false => exact .inl ⟨rfl, rfl⟩

/-- A result write, hazard or not. -/
theorem State.writeResult_cases (s : State) (b : Bank) (n : Nat) (v : Word) :
    (s.frameWrites b n = false ∧ s.writeResult b n v = { s with mem := s.mem.writeWord (rramAddr b n) v }) ∨
    (s.frameWrites b n = true ∧ s.writeResult b n v =
      { s with
        mem := s.mem.writeWord (rramAddr b n) v
        hazards := { s.hazards with output := true }
        frameHazard := { s.frameHazard with output := s.frameHazard.output.insert n } }) := by
  unfold State.writeResult
  cases h : s.frameWrites b n with
  | true => exact .inr ⟨rfl, rfl⟩
  | false => exact .inl ⟨rfl, rfl⟩

/-- What a read can answer: a word with no draw used, a free value with one, or no word. -/
theorem State.busRead_cases (s : State) (a : Offset) :
    (∃ w, s.busReply a = .word w ∧ s.busRead a = some (w, 0)) ∨
    (s.busReply a = .draw ∧ s.busRead a = some (Config.drawWord s.draws, 1)) ∨
    (s.busReply a = .unwritten ∧ s.busRead a = none) := by
  unfold State.busRead
  cases h : s.busReply a with
  | word w => exact .inl ⟨w, rfl, rfl⟩
  | draw => exact .inr (.inl ⟨rfl, rfl⟩)
  | unwritten => exact .inr (.inr ⟨rfl, rfl⟩)

/-- What a turn of the Host can do when it goes on. -/
theorem State.hostTurn_next {s t : State} (h : s.hostTurn = .next t) :
    (s.host = [] ∧ t = s) ∨
    (∃ a v rest, s.host = .write a v :: rest ∧ State.busWrite { s with host := rest } a v = .next t) ∨
    (∃ a rest w d, s.host = .read a :: rest ∧ s.busRead a = some (w, d) ∧
      t = State.deliver { s with host := rest } w d) ∨
    (∃ a mask val rest w d, s.host = .poll a mask val :: rest ∧ s.busRead a = some (w, d) ∧
      t = State.deliver { s with host := pollAgain w mask val (.poll a mask val) rest } w d) := by
  unfold State.hostTurn at h
  cases hh : s.host with
  | nil => rw [hh] at h; cases h; exact .inl ⟨rfl, rfl⟩
  | cons op rest =>
    rw [hh] at h
    cases op with
    | write a v => exact .inr (.inl ⟨a, v, rest, rfl, h⟩)
    | read a =>
      cases hr : s.busRead a with
      | none => simp [State.hostOp, hr] at h
      | some p =>
        obtain ⟨w, d⟩ := p
        simp only [State.hostOp, hr, Host.Outcome.next.injEq] at h
        exact .inr (.inr (.inl ⟨a, rest, w, d, rfl, hr, h.symm⟩))
    | poll a mask val =>
      cases hr : s.busRead a with
      | none => simp [State.hostOp, hr] at h
      | some p =>
        obtain ⟨w, d⟩ := p
        simp only [State.hostOp, hr, Host.Outcome.next.injEq] at h
        exact .inr (.inr (.inr ⟨a, mask, val, rest, w, d, rfl, hr, h.symm⟩))

/-- What a turn of the Engine can do when it goes on. -/
theorem State.engineTurn_next {s t : State} (h : s.engineTurn = .next t) :
    (s.run.state = .idle ∧ t = s) ∨
    (∃ ws, s.run.state = .busy ∧ fetchWords s.mem s.run.inBank s.frameSize = some ws ∧
      t = s.commitFrame (settle s.frameHazard s.draws (processFrame s.run.cfg s.run.thresh ws))) := by
  unfold State.engineTurn at h
  cases hs : s.run.state with
  | idle => rw [hs] at h; cases h; exact .inl ⟨rfl, rfl⟩
  | busy =>
    rw [hs] at h
    rcases State.complete_cases s with ⟨hc, _⟩ | ⟨ws, hw, hc⟩
    · simp only [hc] at h; cases h
    · simp only [hc, Host.Outcome.next.injEq] at h
      exact .inr ⟨ws, rfl, hw, h.symm⟩

/-! ### A step -/

/-- Which agent a step is the step of. -/
theorem step_cases (s : State) :
    (s.dueTurn = .host ∧ step s = State.hostTurn { s with turns := s.turns.tail }) ∨
    (s.dueTurn = .engine ∧ step s = State.engineTurn { s with turns := s.turns.tail }) ∨
    (s.dueTurn = .reset ∧ step s = .next (State.resetInput { s with turns := s.turns.tail })) := by
  unfold step State.advance State.takeTurn
  cases h : s.dueTurn with
  | host => exact .inl ⟨rfl, rfl⟩
  | engine => exact .inr (.inl ⟨rfl, rfl⟩)
  | reset => exact .inr (.inr ⟨rfl, rfl⟩)

end Sys2Proof.Machine
end

