-- ==== Sys2Proof/Laws/PerInstr.lean ====
section
/-! SUPPORT. Facts about each command as syntax, one lemma per constructor. -/
namespace Sys2Proof.Laws

/-- The word of a command selects the row of the opcode map that has its mnemonic, and no other (30_encoding.md R103). -/
def SelectsItsRow.Statement (i : Instr) : Prop :=
  ∀ r ∈ opcodeMap, r.selects (encode i) = decide (r.mnemonic = i.mnemonic)

theorem SelectsItsRow.nop : SelectsItsRow.Statement .nop := by
  unfold SelectsItsRow.Statement; decide

theorem SelectsItsRow.configure : SelectsItsRow.Statement .configure := by
  unfold SelectsItsRow.Statement; decide

theorem SelectsItsRow.process (inBank outBank : Bank) : SelectsItsRow.Statement (.process inBank outBank) := by
  revert inBank outBank; unfold SelectsItsRow.Statement; decide

theorem SelectsItsRow.abort : SelectsItsRow.Statement .abort := by
  unfold SelectsItsRow.Statement; decide

theorem SelectsItsRow.clipClr : SelectsItsRow.Statement .clipClr := by
  unfold SelectsItsRow.Statement; decide

theorem SelectsItsRow.clipDec : SelectsItsRow.Statement .clipDec := by
  unfold SelectsItsRow.Statement; decide

theorem SelectsItsRow.softReset : SelectsItsRow.Statement .softReset := by
  unfold SelectsItsRow.Statement; decide

end Sys2Proof.Laws
end

