-- ==== Sys2Proof/Machine/Assembler.lean ====
section
/-! DEFINITION. The text of a host script (30_encoding.md R107 to R109): lines, comments, literals, register names, RAM words,
statements, and the assembly of a text into bus transactions. -/
namespace Sys2Proof.Machine

/-- A token: a word of letters, digits and underscores, one of the notation's other characters, or the end of a line. -/
inductive Tok
  | word (cs : List Char)
  | sym (c : Char)
  | newline
deriving DecidableEq, Repr

/-- A letter, a digit or an underscore. -/
def isWordChar (c : Char) : Bool :=
  decide (65 ≤ c.toNat ∧ c.toNat ≤ 90) || decide (97 ≤ c.toNat ∧ c.toNat ≤ 122) || decide (48 ≤ c.toNat ∧ c.toNat ≤ 57) || c == '_'

/-- The word collected so far, as a token in front of the rest. -/
def endWord (acc : List Char) (rest : List Tok) : List Tok :=
  match acc with
  | [] => rest
  | _ :: _ => .word acc.reverse :: rest

/-- The tokens of a text; `acc` is the word being read, backwards, and `comment` holds from `;` to the end of the line
(30_encoding.md R107). -/
def lex (comment : Bool) (acc : List Char) : List Char → List Tok
  | [] => endWord acc []
  | c :: cs =>
    if c = '\n' then endWord acc (.newline :: lex false [] cs)
    else if comment then lex true [] cs
    else if c = ';' then endWord acc (lex true [] cs)
    else if isWordChar c then lex false (c :: acc) cs
    else if c = ' ' ∨ c = '\t' ∨ c = '\r' then endWord acc (lex false [] cs)
    else endWord acc (.sym c :: lex false [] cs)

/-- The lines; `acc` is the line being read, backwards. A list in brackets may go on over a line end. -/
def tokLines (inList : Bool) (acc : List Tok) : List Tok → List (List Tok)
  | [] => [acc.reverse]
  | .newline :: ts => if inList then tokLines true acc ts else acc.reverse :: tokLines false [] ts
  | .sym c :: ts => tokLines (if c = '[' then true else if c = ']' then false else inList) (.sym c :: acc) ts
  | .word w :: ts => tokLines inList (.word w :: acc) ts

/-- The value of a digit in a base, none for another character. -/
def digitValue (base : Nat) (c : Char) : Option Nat :=
  let n := c.toNat
  let d :=
    if 48 ≤ n ∧ n ≤ 57 then n - 48
    else if 65 ≤ n ∧ n ≤ 70 then n - 55
    else if 97 ≤ n ∧ n ≤ 102 then n - 87
    else 16
  if d < base then some d else none

/-- The number a row of digits stands for, going on from `acc`. -/
def digitsValue (base : Nat) : Nat → List Char → Option Nat
  | acc, [] => some acc
  | acc, c :: cs => (digitValue base c).bind fun d => digitsValue base (acc * base + d) cs

/-- A literal: hexadecimal after `0x`, else decimal; none for a row without digits. -/
def literal : List Char → Option Nat
  | [] => none
  | '0' :: 'x' :: c :: cs => digitsValue 16 0 (c :: cs)
  | c :: cs => digitsValue 10 0 (c :: cs)

/-- A 32-bit literal (30_encoding.md R107). -/
def literal32 (cs : List Char) : Option Word :=
  (literal cs).bind fun n => if n < 2 ^ 32 then some (BitVec.ofNat 32 n) else none

/-- The register of a name (10_state.md section 2). -/
def regNames : List (List Char × Reg) :=
  [(['I', 'D'], .id), (['V', 'E', 'R', 'S', 'I', 'O', 'N'], .version), (['C', 'T', 'R', 'L'], .ctrl),
   (['D', 'I', 'S', 'P', '_', 'W', 'I', 'D', 'T', 'H'], .dispWidth),
   (['C', 'L', 'I', 'P', '_', 'T', 'H', 'R', 'E', 'S', 'H'], .clipThresh), (['C', 'M', 'D'], .cmd),
   (['S', 'T', 'A', 'T', 'U', 'S'], .status), (['A', 'C', 'T', 'I', 'V', 'E', '_', 'C', 'F', 'G'], .activeCfg),
   (['I', 'R', 'Q', '_', 'S', 'T', 'A', 'T', 'U', 'S'], .irqStatus),
   (['I', 'R', 'Q', '_', 'E', 'N', 'A', 'B', 'L', 'E'], .irqEnable), (['M', 'A', 'X', '_', 'I'], .maxI),
   (['M', 'A', 'X', '_', 'Q'], .maxQ), (['C', 'L', 'I', 'P', '_', 'C', 'O', 'U', 'N', 'T'], .clipCount),
   (['F', 'R', 'A', 'M', 'E', '_', 'C', 'O', 'U', 'N', 'T'], .frameCount),
   (['E', 'R', 'R', '_', 'I', 'N', 'F', 'O'], .errInfo), (['E', 'R', 'R', '_', 'C', 'M', 'D'], .errCmd)]

/-- The bank number behind `SRAM` or `RRAM`, and which RAM it is. -/
def ramName : List Char → Option (Bool × Nat)
  | 'S' :: 'R' :: 'A' :: 'M' :: c :: cs => (digitsValue 10 0 (c :: cs)).map fun b => (false, b)
  | 'R' :: 'R' :: 'A' :: 'M' :: c :: cs => (digitsValue 10 0 (c :: cs)).map fun b => (true, b)
  | _ => none

/-- `<off>`: a RAM word, a register name or a byte offset (30_encoding.md R107), and the tokens behind it. -/
def parsePlace : List Tok → Option (Place × List Tok)
  | .word w :: .sym '[' :: .word n :: .sym ']' :: rest =>
    match ramName w, literal n with
    | some (false, b), some k => some (.sram b k, rest)
    | some (true, b), some k => some (.rram b k, rest)
    | _, _ => none
  | .word w :: rest =>
    match regNames.lookup w with
    | some r => some (.reg r, rest)
    | none => (literal w).map fun a => (.off a, rest)
  | _ => none

/-- A component of `SAMPLE`, with its sign. -/
def parseInt : List Tok → Option (Int × List Tok)
  | .sym '-' :: .word w :: rest => (literal w).map fun n => (-(n : Int), rest)
  | .word w :: rest => (literal w).map fun n => ((n : Int), rest)
  | _ => none

/-- `(<i>, <q>)` behind `SAMPLE`: the sample word (30_encoding.md R109). -/
def parseSample : List Tok → Option (Word × List Tok)
  | .sym '(' :: ts =>
    match parseInt ts with
    | some (i, .sym ',' :: us) =>
      match parseInt us with
      | some (q, .sym ')' :: rest) => some (sampleWord i q, rest)
      | _ => none
    | _ => none
  | _ => none

/-- `<val>`: a 32-bit literal, or a sample word by its components (30_encoding.md R107, R109). -/
def parseVal : List Tok → Option (Word × List Tok)
  | .word w :: rest =>
    if w = ['S', 'A', 'M', 'P', 'L', 'E'] then parseSample rest else (literal32 w).map fun v => (v, rest)
  | _ => none

/-- An item of a `LOADF` list: a word, or `<w> * <r>` for `r` copies of it (30_encoding.md R109). -/
def parseItem (ts : List Tok) : Option ((Word × Nat) × List Tok) :=
  match parseVal ts with
  | some (w, .sym '*' :: .word r :: rest) => (literal r).map fun n => ((w, n), rest)
  | some (w, rest) => some ((w, 1), rest)
  | none => none

/-- The items of a `LOADF` list up to its closing bracket, at most `fuel` of them. -/
def parseItems : Nat → List Tok → Option (List (Word × Nat))
  | 0, _ => none
  | fuel + 1, ts =>
    match parseItem ts with
    | some (it, [.sym ']']) => some [it]
    | some (it, .sym ',' :: rest) => (parseItems fuel rest).map fun more => it :: more
    | _ => none

/-- `WR <off>, <val>` behind its keyword. -/
def parseWr (ts : List Tok) : Option Stmt :=
  match parsePlace ts with
  | some (p, .sym ',' :: us) =>
    match parseVal us with
    | some (v, []) => some (.wr p v)
    | _ => none
  | _ => none

/-- `RD <off> -> <name>` behind its keyword. -/
def parseRd (ts : List Tok) : Option Stmt :=
  match parsePlace ts with
  | some (p, [.sym '-', .sym '>', .word n]) => some (.rd p (String.ofList n))
  | _ => none

/-- `POLL <off>, <mask>, <val>` behind its keyword. -/
def parsePoll (ts : List Tok) : Option Stmt :=
  match parsePlace ts with
  | some (p, .sym ',' :: us) =>
    match parseVal us with
    | some (m, .sym ',' :: vs) =>
      match parseVal vs with
      | some (v, []) => some (.poll p m v)
      | _ => none
    | _ => none
  | _ => none

/-- `PROCESS <in>, <out>` behind its keyword. -/
def parseProcess : List Tok → Option Stmt
  | [.word i, .sym ',', .word o] =>
    match literal i, literal o with
    | some b, some c => some (.process b c)
    | _, _ => none
  | _ => none

/-- `ACK <bits>` behind its keyword. -/
def parseAck (ts : List Tok) : Option Stmt :=
  match parseVal ts with
  | some (v, []) => some (.ack v)
  | _ => none

/-- `LOADF <b>, [w0, w1, …]` behind its keyword. -/
def parseLoadF : List Tok → Option Stmt
  | .word b :: .sym ',' :: .sym '[' :: ts =>
    match literal b, parseItems ts.length ts with
    | some k, some items => some (.loadF k items)
    | _, _ => none
  | _ => none

/-- A statement without operands. -/
def parseBare (st : Stmt) : List Tok → Option Stmt
  | [] => some st
  | _ :: _ => none

/-- The keywords of the statements (30_encoding.md R107 to R109), each with the parser of its operands. -/
def statementParsers : List (List Char × (List Tok → Option Stmt)) :=
  [(['W', 'R'], parseWr), (['R', 'D'], parseRd), (['P', 'O', 'L', 'L'], parsePoll),
   (['N', 'O', 'P'], parseBare .nop), (['C', 'O', 'N', 'F', 'I', 'G', 'U', 'R', 'E'], parseBare .configure),
   (['P', 'R', 'O', 'C', 'E', 'S', 'S'], parseProcess), (['A', 'B', 'O', 'R', 'T'], parseBare .abort),
   (['C', 'L', 'I', 'P', '_', 'C', 'L', 'R'], parseBare .clipClr),
   (['C', 'L', 'I', 'P', '_', 'D', 'E', 'C'], parseBare .clipDec),
   (['S', 'O', 'F', 'T', '_', 'R', 'E', 'S', 'E', 'T'], parseBare .softReset),
   (['W', 'A', 'I', 'T', 'I', 'D', 'L', 'E'], parseBare .waitIdle),
   (['W', 'A', 'I', 'T', 'D', 'O', 'N', 'E'], parseBare .waitDone), (['A', 'C', 'K'], parseAck),
   (['L', 'O', 'A', 'D', 'F'], parseLoadF)]

/-- One line: a statement, or nothing for a comment or an empty line (30_encoding.md R107). -/
def parseLine : List Tok → Option Stmt
  | [] => some .blank
  | .word w :: ts => (statementParsers.lookup w).bind fun p => p ts
  | _ => none

/-- All lines, none if one of them is no statement. -/
def parseLines : List (List Tok) → Option (List Stmt)
  | [] => some []
  | l :: ls =>
    match parseLine l, parseLines ls with
    | some st, some more => some (st :: more)
    | _, _ => none

/-- The statements of a text (30_encoding.md R107 to R109; log 19). -/
def parseScript (text : List Char) : Option (List Stmt) := parseLines (tokLines false [] (lex false [] text))

/-- The transactions of a text, none if the script is refused (30_encoding.md R108). -/
def assemble (text : List Char) : Option (List HostOp) := (parseScript text).bind expandScript

/-- A state whose Host has the text's transactions still to issue; a refused script changes nothing (30_encoding.md R108). -/
def State.withText (s : State) (text : List Char) : State :=
  match assemble text with
  | some ops => { s with host := s.host ++ ops }
  | none => s

end Sys2Proof.Machine
end

