-- ==== Sys2Proof/Tests/Slice0.lean ====
section
/-! SUPPORT. Small tests. Expected results come from the spec's own examples and from 95_test_vectors.md (named at each test),
and the witnesses show that the hypotheses of the statements can be met together. -/
namespace Sys2Proof.Tests

set_option Elab.async false

open Sys2Proof.Machine

/-- A field of the next state, none at a stop. -/
def after {α : Type} (o : Host.Outcome State Fault Refusal) (f : State → α) : Option α :=
  match o with
  | .next s => some (f s)
  | .fault _ => none
  | .refused _ => none

/-- A step stops with the one fault. -/
def faults (o : Host.Outcome State Fault Refusal) : Bool :=
  match o with
  | .next _ => false
  | .fault .unwrittenRead => true
  | .refused _ => false

/-- 64 points, rectangular, no corrections. -/
def smallCfg : ActiveCfg := { log2n := 6, winsel := .rectangular, lagfix := false, revIq := false, sizeAdj := false }

/-- 64 sample words of value `w` in bank 0. -/
@[irreducible] def sampleMem (w : Word) : Memory := Memory.writeWords [] (sramAddr 0 0) (List.replicate 64 w)

theorem sampleMem_eq (w : Word) : sampleMem w = Memory.writeWords [] (sramAddr 0 0) (List.replicate 64 w) := by
  unfold sampleMem
  rfl

/-- The state right after `PROCESS 0, 1` with 64 sample words of value `w` in bank 0. -/
def running (w : Word) : State :=
  { State.reset with
    activeCfg := smallCfg
    run := { state := .busy, inBank := 0, outBank := 1, thresh := 32000, cfg := smallCfg }
    mem := sampleMem w }

theorem running_readWord (w : Word) {n : Nat} (h : n < 64) : (running w).mem.readWord (sramAddr 0 n) = some w := by
  have e : (running w).mem = Memory.writeWords [] (sramAddr 0 0) (List.replicate 64 w) := sampleMem_eq w
  rw [e, sramAddr_eq 0 n, Memory.readWord_writeWords _ _ _ _ (by rw [List.length_replicate]; exact h), List.getElem_replicate]

theorem running_fetch (w : Word) :
    fetchWords (running w).mem (running w).run.inBank (running w).frameSize = some (List.replicate 64 w) :=
  (Memory.readWords_eq_some _ _ _ _).2 ⟨rfl, fun k h => by
    rw [← sramAddr_eq, List.getElem_replicate]
    exact running_readWord w h⟩

/-- The completion of `running` stores the frame of its samples. -/
theorem running_step (w : Word) :
    step (running w) = .next ((running w).commitFrame (processFrame smallCfg 32000 (List.replicate 64 w))) := by
  have h : step (running w) = State.complete (running w) := rfl
  have hf : (running w).frameHazard = FrameHazard.clear := rfl
  have hc : (running w).run.cfg = smallCfg := rfl
  have ht : (running w).run.thresh = 32000 := rfl
  rw [h, State.complete, running_fetch]
  dsimp only
  rw [hf, settle_clear, hc, ht]

/-- `running` with samples of half scale, as in 95_test_vectors.md P1. -/
def halfScale : State := running 0x00004000

theorem halfScale_mem : halfScale.mem = Memory.writeWords [] (sramAddr 0 0) (List.replicate 64 0x00004000) := by
  rw [← sampleMem_eq]
  rfl

theorem halfScale_run : halfScale.run = { state := .busy, inBank := 0, outBank := 1, thresh := 32000, cfg := smallCfg } := rfl

theorem halfScale_frameHazard : halfScale.frameHazard = FrameHazard.clear := rfl

/-- The reset state with one transaction pending. -/
def pending (op : HostOp) : State := { State.reset with host := [op] }

/-- `halfScale` with a hazard record. -/
def hazarded (h : FrameHazard) : State := { halfScale with frameHazard := h }

/-- `halfScale` with a transaction pending and a schedule. -/
def waiting (op : HostOp) (turns : List Turn) : State := { halfScale with host := [op], turns := turns }

/-- `halfScale` with nothing written. -/
def unwritten : State := { halfScale with mem := [] }

/-! ### Well-formedness: each check refuses an ill-formed term -/

theorem test_wellFormed_accepts : (Instr.process 1 1).wellFormed = true ∧ (Stmt.process 1 1).wellFormed = true ∧
    (Stmt.wr (.sram 1 1023) 0).wellFormed = true ∧ (Stmt.loadF 0 [(0x4000, 1024)]).wellFormed = true := by decide

theorem test_wellFormed_refuses_banks : (Stmt.process 2 0).wellFormed = false ∧ (Stmt.process 0 2).wellFormed = false ∧
    (Stmt.rd (.sram 2 0) "x").wellFormed = false ∧ (Stmt.rd (.rram 2 0) "x").wellFormed = false ∧
    (Stmt.loadF 2 []).wellFormed = false := by decide

theorem test_wellFormed_refuses_ranges : (Stmt.wr (.off 0x10000) 0).wellFormed = false ∧
    (Stmt.wr (.sram 0 1024) 0).wellFormed = false ∧ (Stmt.poll (.rram 0 1024) 0 0).wellFormed = false ∧
    (Stmt.loadF 0 [(0, 1000), (0, 25)]).wellFormed = false := by decide

/-! ### Decoding: words written out from 30_encoding.md R103 and 95_test_vectors.md V1 -/

theorem test_decode_nop : decode 0b00000000000000000000000000000000#32 = .command .nop := by decide
theorem test_decode_configure : decode 0b00000000000000000000000000000001#32 = .command .configure := by decide
theorem test_decode_process : decode 0b00000000000000000000000100000010#32 = .command (.process 1 0) ∧
    decode 0b00000000000000000000001000000010#32 = .command (.process 0 1) := by decide
theorem test_decode_abort : decode 0b00000000000000000000000000000011#32 = .command .abort := by decide
theorem test_decode_clipClr : decode 0b00000000000000000000000000000100#32 = .command .clipClr := by decide
theorem test_decode_clipDec : decode 0b00000000000000000000000000000101#32 = .command .clipDec := by decide
theorem test_decode_softReset : decode 0b00000000000000000000000000000110#32 = .command .softReset := by decide

/-- 95_test_vectors.md V1, the rejected rows. -/
theorem test_decode_rejects :
    [0x00000007#32, 0x000000FF, 0x00000107, 0xFFFFFFFF].map decode = List.replicate 4 (.illegal .illegalOpcode) ∧
    [0x00000100#32, 0x00000400, 0x00000402, 0x80000002, 0x10000001].map decode =
      List.replicate 5 (.illegal .reservedBits) := by decide

theorem test_decodeTableWord : decodeTableWord 32 0x302 = some (.process 1 1) ∧ decodeTableWord 32 0x7 = none := by decide

/-! ### ROM check values (20_memory.md R80, R81, R82) -/

theorem test_rom_sums : cosRows.flatten.sum = 5356720 ∧ cosRows.flatten.length = 257 ∧
    logRows.flatten.sum = 37367338 ∧ logRows.flatten.length = 1024 := by decide +kernel

theorem test_rom_values : cosf 0 = 32768 ∧ cosf 512 = -32768 ∧ sinf 0 = 0 ∧ sinf 256 = 32768 ∧ sinf 300 = 31581 := by
  decide +kernel

/-! ### Commands -/

/-- 40_commands.md R121: `NOP` while a frame runs. -/
theorem test_nop : after (exec .nop halfScale) State.run = some halfScale.run := by decide +kernel

/-- 95_test_vectors.md V3: `CTRL = 0xDA`, `DISP_WIDTH = 200` gives 0x1D7. -/
theorem test_configure :
    after (exec .configure { State.reset with ctrl := 0xDA, dispWidth := 200 }) (fun t => t.readReg .activeCfg) =
      some 0x000001D7 := by decide +kernel

/-- 95_test_vectors.md V2.4: the reserved window. -/
theorem test_configure_badWindow :
    after (exec .configure { State.reset with ctrl := 0x3A }) (fun t => (t.errCode, t.errCmd, t.readReg .activeCfg)) =
      some (4, 1, 0x0A) := by decide +kernel

/-- 40_commands.md R124: from IDLE, word 0x202 gives `STATUS = 5`. -/
theorem test_process : after (step (State.reset.withFetchWord 32 0x202)) (fun t => t.readReg .status) = some 5 := by
  decide +kernel

/-- 95_test_vectors.md V2.2: `PROCESS 1, 1` while busy. -/
theorem test_process_busy :
    after (exec (.process 1 1) halfScale) (fun t => (t.errCode, t.errCmd, t.run)) = some (3, 0x302, halfScale.run) := by
  decide +kernel

/-- 95_test_vectors.md V12.6: `STATUS = 4`, `FRAME_COUNT` unchanged. -/
theorem test_abort : after (exec .abort halfScale) (fun t => (t.readReg .status, t.frameCount, t.irqStatus)) =
    some (4, 0, 0) := by decide +kernel

/-- 40_commands.md R128. -/
theorem test_clipClr : after (exec .clipClr { State.reset with clipCount := 7 }) State.clipCount = some 0 := by decide +kernel

/-- 95_test_vectors.md V12.3. -/
theorem test_clipDec : after (exec .clipDec { State.reset with clipCount := 1 }) State.clipCount = some 0 ∧
    after (exec .clipDec { State.reset with clipCount := 0 }) State.clipCount = some 0 := by decide +kernel

/-- 40_commands.md R130. -/
theorem test_softReset :
    after (exec .softReset { State.reset with ctrl := 0x26, errCode := 3, errCmd := 1, irqStatus := 7, irqEnable := 7 })
      (fun t => (t.ctrl, t.errCode, t.errCmd, t.irq)) = some (0x0A, 0, 0, false) := by decide +kernel

/-! ### Bus and registers: 95_test_vectors.md V4 -/

/-- V4.1, V4.2, V4.3, V4.4. -/
theorem test_reads : [0x000#16, 0x001, 0x003, 0x004, 0x040, 0xFFC, 0x5000, 0xFFFC, 0x014].map State.reset.busReply =
    [.word 0x46465431, .word 0x46465431, .word 0x46465431, .word 0x00010000, .word 0, .word 0, .word 0, .word 0, .word 0] := by
  decide +kernel

/-- V4.5, V4.6, V4.7, V4.8. -/
theorem test_register_writes :
    after (State.reset.busWrite 0x008 0xFFFFFFFF) (fun t => t.readReg .ctrl) = some 0xFF ∧
    after (State.reset.busWrite 0x00C 0x12345678) (fun t => t.readReg .dispWidth) = some 0x5678 ∧
    after (State.reset.busWrite 0x00A 0x55) (fun t => t.readReg .ctrl) = some 0x55 ∧
    after (State.reset.busWrite 0x024 0xFF) (fun t => t.readReg .irqEnable) = some 7 := by decide +kernel

/-- V4.10, V4.11. -/
theorem test_irq :
    after (State.busWrite { State.reset with irqStatus := 7 } 0x020 5) State.irqStatus = some 2 ∧
    State.irq { State.reset with irqStatus := 2, irqEnable := 1 } = false ∧
    after (State.busWrite { State.reset with irqStatus := 2, irqEnable := 1 } 0x024 3) State.irq = some true := by
  decide +kernel

/-- V4.12, V4.13. -/
theorem test_ram :
    faults (step (pending (.read 0x1000))) = true ∧
    after (State.reset.busWrite 0x2014 0xDEADBEEF) (fun t => t.busReply 0x2017) = some (.word 0xDEADBEEF) := by decide +kernel

/-- 20_memory.md R67: byte lane 0 lies lowest. -/
theorem test_byte_lanes : after (State.reset.busWrite 0x1000 0x11223344) (fun t => (t.mem.readByte 0x1000, t.mem.readByte 0x1003)) =
    some (some 0x44, some 0x11) := by decide +kernel

/-- V12.9, V12.10, V12.11, and the record of the frame. -/
theorem test_hazards :
    after (halfScale.busWrite 0x100C 0) (fun t => (t.hazards, t.frameHazard.input)) = some (⟨true, false⟩, true) ∧
    after (halfScale.busWrite 0x400C 0) (fun t => (t.hazards, t.frameHazard.output)) = some (⟨false, true⟩, [3]) ∧
    [0x1100#16, 0x200C, 0x300C, 0x4100].map (fun a => after (halfScale.busWrite a 0) State.noHazard) =
      List.replicate 4 (some true) := by decide +kernel

/-! ### The frame computation: 95_test_vectors.md V3, V6, V7, V8, V10, P1, V11 -/

theorem test_clamp : [clampN 10 1024, clampN 10 127, clampN 10 0, clampN 6 0, clampN 15 100, clampN 0 1024, clampN 8 300] =
    [(10, false), (6, true), (6, true), (6, false), (6, true), (6, true), (8, false)] := by decide

theorem test_fetch : sampleI 0x80007FFF = 32767 ∧ sampleQ 0x80007FFF = -32768 ∧ sampleWord 32767 (-32768) = 0x80007FFF := by
  decide +kernel

theorem test_lag_and_swap : delayOne [10, 20, 30, 99] = [99, 10, 20, 30] ∧
    revIq { i := [1, 2], q := [3, 4] } true = { i := [3, 4], q := [1, 2] } := by decide +kernel

theorem test_window : [0, 1, 2, 8, 16, 31, 32].map (windowCoef .hann 64) = [0, 79, 315, 4799, 16384, 32689, 32768] ∧
    [0, 1, 2, 8, 16, 31, 32].map (windowCoef .hamming 64) = [2622, 2695, 2912, 7037, 17695, 32695, 32768] := by decide +kernel

theorem test_rounding : [rnd (-1 * 16384) 15, rnd (1 * 16384) 15, rnd (-3 * 16384) 15, rnd (-1) 1, rnd 1 1] =
    [0, 1, -1, 0, 1] := by decide +kernel

theorem test_bitrev : [0, 1, 2, 3, 5, 6, 63].map (bitrev 6) = [0, 32, 16, 48, 40, 24, 63] ∧ bitrev 10 3 = 768 := by
  decide +kernel

theorem test_cmul : cmul ⟨1000, 0⟩ 128 = ⟨707, -707⟩ ∧ cmul ⟨-3, 5⟩ 256 = ⟨5, 3⟩ ∧ cmul ⟨1, 1⟩ 128 = ⟨1, 0⟩ ∧
    cmul ⟨100000, -50000⟩ 300 = ⟨-74861, -83041⟩ := by decide +kernel

theorem test_butterfly : butterfly ⟨10, 0⟩ ⟨3, 0⟩ 0 = (⟨7, 0⟩, ⟨4, 0⟩) ∧
    butterfly ⟨100, 50⟩ ⟨20, -30⟩ 256 = (⟨35, 15⟩, ⟨65, 35⟩) ∧
    butterfly ⟨2097088, 2097088⟩ ⟨2097088, 2097088⟩ 384 = (⟨1048544, -434290⟩, ⟨1048544, 2531379⟩) := by decide +kernel

theorem test_log : [0, 2, 3, 1023, 1025, 2 ^ 40, 2 ^ 42 - 1, 2 ^ 44 - 1].map (fun p => dbQ8 (log2q (floorPower p))) =
    [-32367, -31596, -31145, -24661, -24659, -1541, -1, 1541] := by decide +kernel

/-- P1: the completion of a half-scale frame. -/
theorem test_completion :
    after (step halfScale) (fun t => (t.maxI, t.irqStatus, t.frameCount, t.run.state)) = some (0x4000, 1, 1, .idle) ∧
    (processFrame smallCfg 32000 (List.replicate 64 0x00004000)).words = 0xFFFFF9FB :: List.replicate 63 0xFFFF8191 := by
  unfold halfScale
  rw [running_step]
  decide +kernel

/-- V9: an impulse gives the same power in every bin. -/
theorem test_impulse :
    (frameDb smallCfg { i := 32767 :: List.replicate 63 0, q := List.replicate 64 0 }) = List.replicate 64 (-9248) := by
  decide +kernel

/-- V11: the half-scale tone at bin 5, Hann, peaks at bin 5, and with the swap at bin 59. -/
theorem test_tone :
    let tone : Channels := { i := (List.range 64).map fun n => cosf (5 * n * 16 % 1024) / 2
                             q := (List.range 64).map fun n => sinf (5 * n * 16 % 1024) / 2 }
    [4, 5, 6].map ((frameDb { smallCfg with winsel := .hann } tone).getD · 0) = [-4624, -3083, -4624] ∧
    [58, 59, 60].map ((frameDb { smallCfg with winsel := .hann, revIq := true } tone).getD · 0) = [-4624, -3083, -4624] := by
  decide +kernel

/-- V12.1: the counter saturates. -/
theorem test_clip_saturates : [countClip 65535 true, countClip 65534 true, countClip 7 false] = [65535, 65535, 7] := by decide

/-! ### Host scripts (30_encoding.md R107 to R109) -/

theorem test_script : expandScript [.wr (.reg .ctrl) 0x26, .blank, .configure, .loadF 1 [(5, 2)], .waitDone, .rd (.rram 0 1) "d1"] =
    some [.write 0x08 0x26, .write 0x14 1, .write 0x2000 5, .write 0x2004 5, .poll 0x20 1 1, .read 0x3004] := by decide +kernel

/-- Lines of 95_test_vectors.md P1, with a shorter list. -/
theorem test_assemble :
    assemble "; P1\nWR CTRL, 0x00000026    ; LOG2N_REQ 6\nCONFIGURE\nLOADF 0, [SAMPLE(16384, -1) * 2,\n 7]\nPROCESS 0, 1\nRD RRAM0[1] -> d1".toList =
      some [.write 0x08 0x26, .write 0x14 1, .write 0x1000 0xFFFF4000, .write 0x1004 0xFFFF4000, .write 0x1008 7,
        .write 0x14 0x202, .read 0x3004] := by decide +kernel

/-- 30_encoding.md R108: a bank other than 0 or 1 refuses the script; so does a line that is no statement. -/
theorem test_assemble_refuses :
    [assemble "NOP\nPROCESS 2, 0".toList, assemble "NOP 1".toList, assemble "WR CTRL, 0x100000000".toList] = [none, none, none] := by
  decide +kernel

theorem test_poll : after (step (waiting (.poll 0x18 1 0) [.host])) State.host = some [.poll 0x18 1 0] ∧
    after (step (pending (.poll 0x18 1 0))) State.host = some [] := by decide +kernel

/-! ### The hypotheses of the statements can be met -/

theorem witness_halfScale_written : ∀ n, n < 2 ^ halfScale.run.cfg.log2n.toNat →
    halfScale.mem.readWord (sramAddr halfScale.run.inBank n) = some ((fun _ => 0x00004000#32) n) :=
  fun _ h => running_readWord _ h

theorem witness_halfScale_fetches : fetchWords halfScale.mem halfScale.run.inBank halfScale.frameSize ≠ none := by
  unfold halfScale
  rw [running_fetch]
  exact Option.some_ne_none _

theorem witness_halfScale_completes : ∃ t, halfScale.engineTurn = .next t := by
  rcases State.complete_cases halfScale with ⟨_, h⟩ | ⟨ws, _, h⟩
  · exact absurd h witness_halfScale_fetches
  · exact ⟨_, h⟩

/-- A running frame with any transactions pending and any schedule has the invariant. -/
theorem witness_inv (s : State) (hm : s.mem = halfScale.mem) (hr : s.run = halfScale.run) (ha : s.activeCfg = smallCfg)
    (hi : s.maxI = 0) (hq : s.maxQ = 0) (he : s.errCode = 0) (hf : s.frameHazard = FrameHazard.clear) : Inv s where
  memSorted := by rw [hm, halfScale_mem]; exact Memory.wf_writeWords _ _ _ rfl
  memInRam := fun c h => by
    rw [hm, halfScale_mem] at h
    rcases Memory.mem_writeWords _ _ _ h with h | h
    · rw [List.length_replicate] at h
      have e : sramAddr 0 0 = 0x1000 := rfl
      omega
    · cases h
  memWholeWords := by
    rw [hm, halfScale_mem]; exact Memory.wholeWords_writeWords _ _ _ (by decide) Memory.wholeWords_nil
  activeLegal := by rw [ha]; constructor <;> decide
  runLegal := by rw [hr, halfScale_run]; constructor <;> decide
  runIsActive := fun _ => by rw [hr, ha, halfScale_run]
  maxIRange := by rw [hi]; decide
  maxQRange := by rw [hq]; decide
  errCodeRange := by rw [he]; decide
  idleFrameClear := fun _ => hf
  inputOnRecord := fun h => by rw [hf] at h; cases h
  outputOnRecord := fun h => absurd (by rw [hf]; rfl) h
  outputInFrame := fun k h => by rw [hf] at h; cases h

theorem witness_inv_halfScale : Inv halfScale := witness_inv _ rfl rfl rfl rfl rfl rfl rfl

theorem witness_inv_waiting (op : HostOp) (turns : List Turn) : Inv (waiting op turns) :=
  witness_inv _ rfl rfl rfl rfl rfl rfl rfl

theorem witness_DecoderFollowsOpcodeMap : (⟨"PROCESS", 0xFFFFFCFF, 0x00000002⟩ : OpRow) ∈ opcodeMap ∧
    7 ≤ (0x00000007#32).toNat % 256 := by decide

theorem witness_DecoderIsTotalOpcodeFirst : 7 ≤ (0x00000007#32).toNat % 256 ∧
    ((0x00000402#32).toNat % 256 = 2 ∧ (0x00000402#32).toNat / 1024 ≠ 0) ∧
    ((0x00000302#32).toNat % 256 = 2 ∧ (0x00000302#32).toNat / 1024 = 0) ∧
    ((0x00000106#32).toNat % 256 < 7 ∧ (0x00000106#32).toNat % 256 ≠ 2 ∧ (0x00000106#32).toNat / 256 ≠ 0) := by decide

theorem witness_MnemonicsAssembleToOneWrite : (1 ≤ 1 ∧ 0 ≤ 1) ∧ ¬(2 ≤ 1 ∧ 0 ≤ 1) ∧ ¬(0 ≤ 1 ∧ 2 ≤ 1) := by decide

theorem witness_StepRunsTheDecodedCommand :
    let s := State.reset.withFetchWord 32 0x302
    s.dueTurn = .host ∧ s.host = .write 0x0014 0x302 :: [] ∧ (0x0014#16).toNat / 4 = 0x14 / 4 ∧
    (0x0017#16).toNat / 4 = 0x14 / 4 ∧ decode 0x302 = .command (.process 1 1) ∧
    (Instr.process 1 1).wellFormed = true := by decide +kernel

theorem witness_RejectionRecordsTheFirstCode :
    7 ≤ (0x107#32).toNat % 256 ∧
    ((0x401#32).toNat % 256 < 7 ∧ (0x401#32).toNat % 256 ≠ 2 ∧ (0x401#32).toNat / 256 ≠ 0) ∧
    ((0x402#32).toNat % 256 = 2 ∧ (0x402#32).toNat / 1024 ≠ 0) ∧
    (¬(((0x302#32).toNat % 256 = 2 ∧ (0x302#32).toNat / 1024 ≠ 0) ∨
        ((0x302#32).toNat % 256 ≠ 2 ∧ (0x302#32).toNat / 256 ≠ 0)) ∧ halfScale.run.state = .busy) ∧
    ((0x001#32).toNat = 1 ∧ State.reset.run.state = .idle ∧ (0x3A#8).toNat / 16 % 4 = 3) := by decide +kernel

theorem witness_ConfigureAppliesStagedConfiguration : State.reset.run.state = .idle ∧ State.reset.ctrl.toNat / 16 % 4 ≠ 3 ∧
    (0x2F#8).toNat / 16 % 4 ≠ 3 := by decide

theorem witness_ReservedWindowIsRejected :
    State.run { State.reset with ctrl := 0x3A } = Run.reset ∧ Run.reset.state = .idle ∧ (0x3A#8).toNat / 16 % 4 = 3 := by
  decide

theorem witness_BusyTurnsAwayConfigureAndProcess : halfScale.run.state = .busy := by decide

theorem witness_ProcessStartsAFrame : State.reset.run.state = .idle := by decide

theorem witness_AbortDiscardsTheRunningFrame :
    (halfScale.run.state = .busy ∧ 63 < 2 ^ halfScale.run.cfg.log2n.toNat) ∧ State.reset.run.state = .idle := by decide

theorem witness_SoftResetRestoresRegistersKeepsRam :
    State.reset.run.state = .idle ∧ halfScale.run.state = .busy ∧ 63 < 2 ^ halfScale.run.cfg.log2n.toNat := by decide

theorem witness_ClampGivesTheLargestFittingSize : (15 < 16 ∧ 65535 < 65536) ∧ (6 ≤ 10 ∧ 10 ≤ 10 ∧ 10 ≤ 15 ∧ 2 ^ 10 ≤ 65535) := by
  decide

theorem witness_EveryTransactionCompletes : State.reset.busRead 0x1000 = none ∧ State.reset.busRead 0x4FFC = none := by
  decide +kernel

theorem witness_ReadsHaveNoSideEffect :
    (pending (.read 0x0008)).dueTurn = .host ∧ (pending (.read 0x0008)).host = .read 0x0008 :: [] ∧
    (pending (.read 0x0008)).busRead 0x0008 = some (0x0A, 0) := by decide +kernel

theorem witness_RamWordReadsBackAsWritten : 1023 < 1024 ∧ State.reset.run.state = .idle ∧
    ((0 : Bank) ≠ halfScale.run.outBank ∧ 2 ^ halfScale.run.cfg.log2n.toNat ≤ 64) := by decide

theorem witness_OffsetsActOnTheAlignedWord : apertureOffset (Config.basePage * 0x10000 + 0x14) = some 0x14 := by
  have h : (Config.basePage * 0x10000 + 0x14) / 0x10000 = Config.basePage := by omega
  have h' : BitVec.ofNat 16 (Config.basePage * 0x10000 + 0x14) = 0x14#16 := by
    apply BitVec.eq_of_toNat_eq
    rw [BitVec.toNat_ofNat, Nat.mul_add_mod']
    rfl
  unfold apertureOffset
  rw [if_pos h, h']
  rfl

theorem witness_ReservedSpaceReadsZeroIgnoresWrites :
    (0x0040 ≤ (0x0040#16).toNat ∧ (0x0040#16).toNat ≤ 0x0FFF) ∧ (0x0040 ≤ (0x0FFF#16).toNat ∧ (0x0FFF#16).toNat ≤ 0x0FFF) ∧
    0x5000 ≤ (0x5000#16).toNat ∧ 0x5000 ≤ (0xFFFF#16).toNat := by decide

theorem witness_UnwrittenReadFaults :
    ((pending (.read 0x2FFC)).dueTurn = .host ∧ (pending (.read 0x2FFC)).host = .read 0x2FFC :: [] ∧
      target 0x2FFC = .sram 1 1023 ∧ (pending (.read 0x2FFC)).mem.readWord (sramAddr 1 1023) = none) ∧
    ((pending (.read 0x3000)).dueTurn = .host ∧ (pending (.read 0x3000)).host = .read 0x3000 :: [] ∧
      target 0x3000 = .rram 0 0 ∧ (pending (.read 0x3000)).frameWrites 0 0 = false ∧
      (pending (.read 0x3000)).mem.readWord (rramAddr 0 0) = none) := by decide +kernel

theorem witness_EarlyOutputReadsAreFree :
    (63 < 1024 ∧ halfScale.run.state = .busy ∧ (1 : Bank) = halfScale.run.outBank ∧
      63 < 2 ^ halfScale.run.cfg.log2n.toNat) ∧
    (2 ^ halfScale.run.cfg.log2n.toNat ≤ 64 ∧
      (State.writeResult halfScale 1 64 5).mem.readWord (rramAddr 1 64) = some 5 ∧
      (State.writeResult halfScale 1 64 5).run = halfScale.run) ∧
    halfScale.mem.readWord (sramAddr 0 63) = some 0x4000 :=
  ⟨by decide, ⟨by decide, Memory.readWord_writeWord_self _ _ _, rfl⟩, running_readWord _ (by decide)⟩

/-- The clauses of a read in IDLE: a written result word and a written sample word, at the last word of a bank. -/
theorem witness_EarlyOutputReadsAreFree_idle : State.reset.run.state = .idle ∧
    (State.reset.writeResult 0 1023 5).run = State.reset.run ∧
    (State.reset.writeResult 0 1023 5).mem.readWord (rramAddr 0 1023) = some 5 ∧
    (State.reset.writeSample 1 1023 6).mem.readWord (sramAddr 1 1023) = some 6 := by decide +kernel

/-- 10_state.md R28, R29: the words of `STATUS` and `ACTIVE_CFG`; `SIZE_ADJ` is bit 8. -/
theorem test_register_words :
    State.busReply { State.reset with run := { Run.reset with outBank := 1 } } 0x18 = .word 4 ∧
    State.busReply { State.reset with
      activeCfg := { log2n := 7, winsel := .hamming, lagfix := true, revIq := false, sizeAdj := true } } 0x1C =
        .word 0x157 := by decide +kernel

theorem witness_CompletionCommitsTheFrame : halfScale.run.state = .busy ∧ halfScale.frameHazard = FrameHazard.clear ∧
    (∀ n, n < 2 ^ halfScale.run.cfg.log2n.toNat →
      halfScale.mem.readWord (sramAddr halfScale.run.inBank n) = some ((fun _ => 0x00004000#32) n)) :=
  ⟨rfl, rfl, witness_halfScale_written⟩

/-- The clause of a clipped frame: a sample of −32768 exceeds 32000. -/
theorem witness_CompletionCommitsTheFrame_clipped :
    (running 0x00008000).run.thresh.toNat < maxAbs (fetchChannels (List.replicate 64 0x00008000)).i ∧
    ¬(halfScale.run.thresh.toNat < maxAbs (fetchChannels (List.replicate 64 0x00004000)).i) := by decide +kernel

theorem witness_CompletionNeedsWrittenSamples :
    (unwritten.run.state = .busy ∧ 63 < 2 ^ unwritten.run.cfg.log2n.toNat ∧
      unwritten.mem.readWord (sramAddr unwritten.run.inBank 63) = none) ∧ State.reset.run.state = .idle := by decide +kernel

theorem witness_CompletionLeavesOtherWords : halfScale.run.cfg.legal ∧ halfScale.run.state = .busy ∧
    (∃ t, halfScale.engineTurn = .next t) ∧ (2 ^ halfScale.run.cfg.log2n.toNat ≤ 64 ∧ 64 < 1024) ∧
    ((0 : Bank) ≠ halfScale.run.outBank ∧ 1023 < 1024) :=
  ⟨by constructor <;> decide, rfl, witness_halfScale_completes, by decide, by decide⟩

/-- The same frame into the other result bank, in a state with other registers. -/
def otherBank : State := { halfScale with run := { halfScale.run with outBank := 0 }, frameCount := 9 }

theorem witness_FrameResultDependsOnItsInputsOnly :
    halfScale.run.state = .busy ∧ otherBank.run.state = .busy ∧ halfScale.frameHazard = FrameHazard.clear ∧
    otherBank.frameHazard = FrameHazard.clear ∧ halfScale.run.cfg = otherBank.run.cfg ∧
    halfScale.run.thresh = otherBank.run.thresh ∧
    (∀ n, n < 2 ^ halfScale.run.cfg.log2n.toNat →
      halfScale.mem.readWord (sramAddr halfScale.run.inBank n) = otherBank.mem.readWord (sramAddr otherBank.run.inBank n)) ∧
    ∃ t, halfScale.engineTurn = .next t :=
  ⟨rfl, rfl, rfl, rfl, rfl, rfl, fun _ _ => rfl, witness_halfScale_completes⟩

theorem witness_LaterRegisterWritesMissTheFrame : Reg.clipThresh ∈ [Reg.ctrl, .dispWidth, .clipThresh, .irqEnable] ∧
    halfScale.run.state = .busy ∧ (∃ t, halfScale.engineTurn = .next t) ∧
    (∃ u, halfScale.writeReg .clipThresh 0xFFFF = .next u) :=
  ⟨by decide, rfl, witness_halfScale_completes, _, rfl⟩

theorem witness_DoubleBufferingIsSafe : Inv halfScale ∧ halfScale.run.state = .busy ∧
    ((3 < 1024 ∧ (1 : Bank) ≠ halfScale.run.inBank) ∧ (64 < 1024 ∧ 2 ^ halfScale.run.cfg.log2n.toNat ≤ 64)) ∧
    (3 < 1024 ∧ (0 : Bank) ≠ halfScale.run.outBank) ∧ (∃ t, halfScale.engineTurn = .next t) ∧
    halfScale.mem.readWord (sramAddr 0 63) = some 0x4000 :=
  ⟨witness_inv_halfScale, rfl, by decide, by decide, witness_halfScale_completes,
    running_readWord _ (by decide)⟩

/-- The reset state with both hazards on record. -/
def recorded : State := { State.reset with hazards := { input := true, output := true } }

theorem witness_HazardsAreRecordedForGood :
    (halfScale.run.state = .busy ∧ 63 < 1024 ∧ 63 < 2 ^ halfScale.run.cfg.log2n.toNat) ∧
    (step recorded = .next recorded ∧ recorded.hazards.input = true ∧ recorded.hazards.output = true) :=
  ⟨by decide, rfl, rfl, rfl⟩

/-- After an input hazard, and after an output hazard on word 3 alone. -/
theorem witness_HazardLeavesFreeValues :
    ((hazarded ⟨true, []⟩).run.state = .busy ∧ (hazarded ⟨true, []⟩).frameHazard.input = true ∧
      ∀ n, n < 2 ^ (hazarded ⟨true, []⟩).run.cfg.log2n.toNat →
        (hazarded ⟨true, []⟩).mem.readWord (sramAddr (hazarded ⟨true, []⟩).run.inBank n) = some ((fun _ => 0x00004000#32) n)) ∧
    ((hazarded ⟨false, [3]⟩).run.state = .busy ∧ (hazarded ⟨false, [3]⟩).frameHazard.input = false ∧
      3 ∈ (hazarded ⟨false, [3]⟩).frameHazard.output ∧ 4 ∉ (hazarded ⟨false, [3]⟩).frameHazard.output ∧
      ∀ n, n < 2 ^ (hazarded ⟨false, [3]⟩).run.cfg.log2n.toNat →
        (hazarded ⟨false, [3]⟩).mem.readWord (sramAddr (hazarded ⟨false, [3]⟩).run.inBank n) =
          some ((fun _ => 0x00004000#32) n)) :=
  ⟨⟨rfl, rfl, witness_halfScale_written⟩, ⟨rfl, rfl, by decide, by decide, witness_halfScale_written⟩⟩

theorem witness_RoundingIsToNearestTiesUp : 1 ≤ 1 ∧ rnd (-1) 1 = 0 := by decide +kernel

theorem witness_CosineRomIsSymmetric : 1023 < 1024 ∧ (1 ≤ 1 ∧ 1 < 1024) ∧ 511 < 512 := by decide

theorem witness_WindowCoefficientsAreSymmetric : (6 ≤ 6 ∧ 6 ≤ 10) ∧ (6 ≤ 10 ∧ 10 ≤ 10) ∧ 63 < 2 ^ 6 ∧ (1 ≤ 63 ∧ 63 < 2 ^ 6) := by
  decide

/-- A frame of extreme samples. -/
theorem witness_FrameSamples : FrameSamples (2 ^ 6) { i := List.replicate 64 (-32768), q := List.replicate 64 32767 } := by
  refine ⟨rfl, rfl, fun v h => ?_, fun v h => ?_⟩ <;>
  · rw [List.eq_of_mem_replicate h]
    constructor <;> decide

theorem witness_WindowKeepsSixteenBits : (6 ≤ 6 ∧ 6 ≤ 10) ∧ (∃ c, FrameSamples (2 ^ 6) c) ∧ 63 < 2 ^ 6 :=
  ⟨by decide, ⟨_, witness_FrameSamples⟩, by decide⟩

theorem witness_LagfixIsACircularDelay : 0 < (Channels.q { i := [], q := [10, 20, 99] }).length := by decide

theorem witness_ChannelMaxIsTheLargestMagnitude : [(3 : Int), -7, 5] ≠ [] ∧ -7 ∈ [(3 : Int), -7, 5] ∧
    ∀ v ∈ [(-32768 : Int), 32767], -32768 ≤ v ∧ v ≤ 32767 := by decide

theorem witness_BitReversalReversesTheBits : 63 < 2 ^ 6 ∧ 5 < 6 := by decide

theorem witness_LoadPlacesSamplesBitReversed : (∃ c, FrameSamples (2 ^ 6) c) ∧ 63 < 2 ^ 6 :=
  ⟨⟨_, witness_FrameSamples⟩, by decide⟩

theorem witness_StageAppliesEveryButterfly : 1 ≤ 6 ∧ 6 ≤ 6 ∧ 6 ≤ 10 ∧
    (List.replicate 64 (Cplx.mk 1 2)).length = 2 ^ 6 ∧ 0 < 2 ^ (6 - 6) ∧ 31 < 2 ^ (6 - 1) := by decide

theorem witness_TransformStaysInItsWidth : (6 ≤ 6 ∧ 6 ≤ 10) ∧ (∃ c, FrameSamples (2 ^ 6) c) ∧ 6 ≤ 6 ∧ 511 < 512 ∧
    stages 6 6 (loadBuffer 6 { i := List.replicate 64 1, q := List.replicate 64 0 }) ≠ [] :=
  ⟨by decide, ⟨_, witness_FrameSamples⟩, by decide, by decide, by decide +kernel⟩

theorem witness_ConstantFrameHasOneBin : (6 ≤ 6 ∧ 6 ≤ 10) ∧ (6 ≤ 10 ∧ 10 ≤ 10) := by decide

theorem witness_LogTakesTenMantissaBits : (2 ^ 0 ≤ 1 ∧ 1 < 2 ^ (0 + 1)) ∧ (2 ^ 43 ≤ 2 ^ 44 - 1 ∧ 2 ^ 44 - 1 < 2 ^ (43 + 1)) := by
  decide

theorem witness_ConverterRangeIsSigned16Bit : 2 ^ 44 - 1 < 2 ^ 44 := by decide

theorem witness_EveryFrameGivesInRangeResults : smallCfg.legal ∧ ∃ c, FrameSamples smallCfg.points c :=
  ⟨by constructor <;> decide, _, witness_FrameSamples⟩

theorem witness_ResetGivesTheSpecsState : (waiting (.read 0) [.reset, .host]).turns = .reset :: [.host] := rfl

theorem witness_EveryStepKeepsTheInvariant : Inv halfScale ∧ ∃ t, step halfScale = .next t :=
  ⟨witness_inv_halfScale, witness_halfScale_completes⟩

theorem witness_ErrorRecordStaysTrue :
    ErrorRecordTrue { State.reset with errCode := 3, errCmd := 0x302 } ∧
    ∃ t, step { State.reset with errCode := 3, errCmd := 0x302 } = .next t :=
  ⟨.inr (.inr (.inr (.inl ⟨rfl, .inr ⟨1, 1, by decide⟩⟩))), _, rfl⟩

/-- A `CONFIGURE` that changes `ACTIVE_CFG`, a `PROCESS` that starts a frame, an `ABORT` that ends one. -/
theorem witness_OnlyCommandsConfigureAndStart :
    after (step (State.withFetchWord { State.reset with ctrl := 0x26 } 32 1)) (fun t => decide (t.activeCfg ≠ ActiveCfg.reset)) =
      some true ∧
    after (step (State.reset.withFetchWord 32 2)) (fun t => t.run.state) = some .busy ∧
    after (step (halfScale.withFetchWord 32 3)) (fun t => t.run.state) = some .idle := by decide +kernel

/-- A completion that changes the maxima and the clip counter. -/
theorem witness_StatisticsChangeOnlyAtCompletion :
    after (step (running 0x00008000)) (fun t => (t.maxI, t.clipCount)) = some (0x8000, 1) ∧
    (running 0x00008000).dueTurn = .engine ∧ (running 0x00008000).run.state = .busy := by
  rw [running_step]
  decide +kernel

theorem witness_SampleRamIsWrittenByTheHostOnly : 0x1000 < 0x3000 ∧
    after (step { State.reset with host := [.write 0x1000 7] }) (fun t => t.mem.readByte 0x1000) = some (some 7) ∧
    State.reset.mem.readByte 0x1000 = none := by decide +kernel

theorem witness_FairScheduleEndsTheWaitLoops :
    (Inv (waiting (.poll 0x18 1 0) [.host, .engine]) ∧ (waiting (.poll 0x18 1 0) [.host, .engine]).run.state = .busy ∧
      (∀ u ∈ (waiting (.poll 0x18 1 0) [.host, .engine]).turns, u ≠ .reset) ∧
      expandStmt .waitIdle = some (waiting (.poll 0x18 1 0) [.host, .engine]).host) ∧
    (Inv (waiting (.poll 0x20 1 1) []) ∧ (waiting (.poll 0x20 1 1) []).run.state = .busy ∧
      (∀ u ∈ (waiting (.poll 0x20 1 1) []).turns, u ≠ .reset) ∧
      expandStmt .waitDone = some (waiting (.poll 0x20 1 1) []).host) :=
  ⟨⟨witness_inv_waiting _ _, rfl, by decide, rfl⟩, ⟨witness_inv_waiting _ _, rfl, by decide, rfl⟩⟩

/-- The samples of a waiting frame are written. -/
theorem witness_FairScheduleEndsTheWaitLoops_written (op : HostOp) (turns : List Turn) :
    fetchWords (waiting op turns).mem (waiting op turns).run.inBank (waiting op turns).frameSize ≠ none :=
  witness_halfScale_fetches

end Sys2Proof.Tests
end

section
/-! The output `irq` as a level over the flags of `IRQ_STATUS` and `IRQ_ENABLE` (10_state.md R41), and the host input it
drives (60_exceptions.md R230). -/
namespace Sys2Proof.Machine

/-- Two vectors differ exactly when some bit differs; against 0, a differing bit of `x &&& y` is a bit set in both. -/
theorem and_ne_zero_iff_exists_common_bit {n : Nat} (x y : BitVec n) :
    x &&& y ≠ 0 ↔ ∃ i, i < n ∧ x.getLsbD i = true ∧ y.getLsbD i = true := by
  simp [BitVec.eq_of_getLsbD_eq_iff]

theorem State.irq_iff_exists_enabled_flag (s : State) :
    s.irq = true ↔ ∃ i, i < 3 ∧ s.irqStatus.getLsbD i = true ∧ s.irqEnable.getLsbD i = true :=
  bne_iff_ne.trans (and_ne_zero_iff_exists_common_bit s.irqStatus s.irqEnable)

theorem State.irqInput_iff (s : State) (line : Nat) :
    s.irqInput line = true ↔ line = Config.irqLine ∧ s.irq = true := by
  rw [State.irqInput, Bool.and_eq_true, decide_eq_true_iff]

/-- Settles O26: the level by the common bit of the two registers, the routing by `irqInput`. -/
theorem irqIsTheEnabledPendingLevel : Obligations.IrqIsTheEnabledPendingLevel :=
  fun s => ⟨s.irq_iff_exists_enabled_flag, s.irqInput_iff⟩

end Sys2Proof.Machine
end

section
/-! The address map seen by a transaction: the aligned word (20_memory.md R63), the platform's decode of a system address
(R60), and reserved space (R61). -/
namespace Sys2Proof.Machine

/-! ### The aligned word -/

/-- Masking with 0xFFFC keeps `addr[15:2]` and clears the two byte bits. -/
theorem and_wordMask_eq_append (a : Offset) : a &&& 0xFFFC = a.extractLsb' 2 14 ++ 0#2 := by
  apply BitVec.eq_of_getLsbD_eq
  intro i hi
  rw [BitVec.getLsbD_and, BitVec.getLsbD_append, BitVec.getLsbD_extractLsb']
  interval_cases i <;> simp

theorem wordOffset_eq_and_wordMask (a : Offset) : wordOffset a = (a &&& 0xFFFC).toNat := by
  rw [and_wordMask_eq_append, BitVec.toNat_append, wordOffset]
  simp [Nat.shiftLeft_eq]

@[simp] theorem wordOffset_and_wordMask (a : Offset) : wordOffset (a &&& 0xFFFC) = wordOffset a := by
  rw [wordOffset_eq_and_wordMask, wordOffset_eq_and_wordMask, BitVec.and_assoc, BitVec.and_self]

/-- The aligned word starts at most three bytes below the offset. -/
theorem wordOffset_bounds (a : Offset) : wordOffset a % 4 = 0 ∧ wordOffset a ≤ a.toNat ∧ a.toNat < wordOffset a + 4 := by
  have ha := a.isLt
  rw [wordOffset, BitVec.extractLsb'_toNat, Nat.shiftRight_eq_div_pow]
  omega

theorem target_congr {a b : Offset} (h : wordOffset a = wordOffset b) : target a = target b := by
  simp only [target, h]

@[simp] theorem target_and_wordMask (a : Offset) : target (a &&& 0xFFFC) = target a :=
  target_congr (wordOffset_and_wordMask a)

/-! ### A transaction depends on its offset only through what it acts on -/

theorem State.busWrite_congr (s : State) {a b : Offset} (v : Word) (h : target a = target b) :
    s.busWrite a v = s.busWrite b v := by
  simp only [State.busWrite, h]

theorem State.busRead_congr (s : State) {a b : Offset} (h : target a = target b) : s.busRead a = s.busRead b := by
  simp only [State.busRead, State.busReply, h]

/-! ### The platform's decode -/

theorem apertureOffset_eq_some_iff (addr : Nat) (a : Offset) :
    apertureOffset addr = some a ↔ a.toNat = addr % 0x10000 ∧ addr / 0x10000 = Config.basePage := by
  have low : BitVec.ofNat 16 addr = a ↔ a.toNat = addr % 0x10000 := by
    rw [← BitVec.toNat_inj, BitVec.toNat_ofNat, eq_comm]
  unfold apertureOffset
  split
  case isTrue h => simp [h, low]
  case isFalse h => simp [h]

/-- Settles O20: an offset and its aligned word have one target, and a transaction sees the target only. -/
theorem offsetsActOnTheAlignedWord : Obligations.OffsetsActOnTheAlignedWord := by
  refine ⟨fun s a v => ?_, fun addr a => (apertureOffset_eq_some_iff addr a).mp⟩
  have aligned : target a = target (a &&& 0xFFFC) := (target_and_wordMask a).symm
  exact ⟨aligned, wordOffset_eq_and_wordMask a, s.busWrite_congr v aligned, s.busRead_congr aligned⟩

/-! ### Reserved space -/

/-- Every region begins and ends at a multiple of 4, so an offset outside them all has its aligned word outside them all. -/
theorem target_eq_reserved {a : Offset} (h : (0x0040 ≤ a.toNat ∧ a.toNat ≤ 0x0FFF) ∨ 0x5000 ≤ a.toNat) :
    target a = .reserved := by
  obtain ⟨haligned, hle, hlt⟩ := wordOffset_bounds a
  rcases target_cases a with ⟨_, _, hreg⟩ | ⟨_, _, _, _, hlo, hhi⟩ | ⟨_, _, _, _, hlo, hhi⟩ | hres
  · omega
  · omega
  · omega
  · exact hres

theorem State.busRead_of_reserved (s : State) {a : Offset} (h : target a = .reserved) : s.busRead a = some (0, 0) := by
  simp only [State.busRead, State.busReply, h]

theorem State.busWrite_of_reserved (s : State) {a : Offset} (v : Word) (h : target a = .reserved) :
    s.busWrite a v = .next s := by
  simp only [State.busWrite, h]

/-- Settles O22: both ranges decode to reserved space. -/
theorem reservedSpaceReadsZeroIgnoresWrites : Obligations.ReservedSpaceReadsZeroIgnoresWrites :=
  fun s _ v h => ⟨s.busRead_of_reserved (target_eq_reserved h), s.busWrite_of_reserved v (target_eq_reserved h)⟩

end Sys2Proof.Machine
end

section
/-! What a completion writes: one result word per point of the frame (42_fft.md R185, 43_logpower.md R207), from the start
of the frame's result bank on, and nothing else (20_memory.md R75). -/
namespace Sys2Proof.Machine

/-! ### The number of result words -/

@[simp] theorem loadBuffer_length (bits : Nat) (x : Channels) : (loadBuffer bits x).length = 2 ^ bits := by
  simp [loadBuffer]

/-- Butterflies pair two halves of equal length off, one result in each half per pair. -/
theorem butterflies_length (step : Nat) (as : List Cplx) : ∀ (j : Nat) (bs : List Cplx), as.length = bs.length →
    (butterflies step j as bs).1.length = as.length ∧ (butterflies step j as bs).2.length = as.length := by
  induction as with
  | nil => intro j bs _; exact ⟨rfl, rfl⟩
  | cons a as ih =>
    intro j bs h
    cases bs with
    | nil => cases h
    | cons b bs =>
      obtain ⟨hlo, hhi⟩ := ih (j + 1) bs (Nat.succ.inj h)
      simp [butterflies, hlo, hhi]

/-- Whole groups keep the length of the buffer. -/
theorem stageGroups_length (h step groups : Nat) : ∀ buf : List Cplx, buf.length = groups * (2 * h) →
    (stageGroups h step groups buf).length = buf.length := by
  induction groups with
  | zero => intro buf hb; simp [stageGroups, hb]
  | succ groups ih =>
    intro buf hb
    rw [Nat.succ_mul] at hb
    have hlower : (buf.take h).length = h := by rw [List.length_take]; omega
    have hupper : ((buf.drop h).take h).length = h := by rw [List.length_take, List.length_drop]; omega
    have hrest : (buf.drop (2 * h)).length = groups * (2 * h) := by rw [List.length_drop]; omega
    obtain ⟨hlo, hhi⟩ := butterflies_length step (buf.take h) 0 ((buf.drop h).take h) (hlower.trans hupper.symm)
    simp only [stageGroups, List.length_append, hlo, hhi, ih _ hrest, hlower, hrest]
    omega

/-- Stage `s` of `bits` splits the buffer into `2^(bits-s)` whole groups of `2^s` values. -/
theorem stage_length {bits s : Nat} (hs : 1 ≤ s) (hsb : s ≤ bits) {buf : List Cplx} (hb : buf.length = 2 ^ bits) :
    (stage bits s buf).length = 2 ^ bits := by
  have groups : 2 ^ bits = 2 ^ (bits - s) * (2 * 2 ^ (s - 1)) := by
    rw [← Nat.pow_succ', ← Nat.pow_add]
    congr 1
    omega
  rw [stage, stageGroups_length _ _ _ _ (hb.trans groups), hb]

theorem stages_length {bits : Nat} {buf : List Cplx} (hb : buf.length = 2 ^ bits) :
    ∀ s, s ≤ bits → (stages bits s buf).length = 2 ^ bits
  | 0, _ => hb
  | s + 1, hs => stage_length (Nat.succ_pos s) hs (stages_length hb s (Nat.le_of_succ_le hs))

@[simp] theorem fft_length (bits : Nat) (x : Channels) : (fft bits x).length = 2 ^ bits :=
  stages_length (loadBuffer_length bits x) bits (Nat.le_refl bits)

@[simp] theorem frameDb_length (cfg : ActiveCfg) (c : Channels) : (frameDb cfg c).length = 2 ^ cfg.log2n.toNat := by
  simp [frameDb, logPower]

/-- A frame gives one result word per point, after a hazard too. -/
@[simp] theorem settle_processFrame_words_length (hz : FrameHazard) (d : Nat) (cfg : ActiveCfg) (thresh : Half)
    (ws : List Word) : (settle hz d (processFrame cfg thresh ws)).words.length = 2 ^ cfg.log2n.toNat := by
  simp [settle, processFrame]

/-! ### The frame of a completion -/

/-- A run of word stores leaves every word outside it alone. -/
theorem Memory.readWord_writeWords_outside (m : Memory) {a b : Nat} (ws : List Word)
    (h : b + 4 ≤ a ∨ a + 4 * ws.length ≤ b) : (m.writeWords a ws).readWord b = m.readWord b :=
  Memory.readWord_congr fun _ _ => Memory.readByte_writeWords_outside ws m a _ (by omega)

/-- A turn of the Engine that goes on changes no word outside the `N` result words of its frame. -/
theorem State.engineTurn_readWord_outside {s t : State} (h : s.engineTurn = .next t) {a : Nat}
    (ha : a + 4 ≤ rramAddr s.run.outBank 0 ∨ rramAddr s.run.outBank (2 ^ s.run.cfg.log2n.toNat) ≤ a) :
    t.mem.readWord a = s.mem.readWord a := by
  rcases State.engineTurn_next h with ⟨_, rfl⟩ | ⟨ws, _, _, rfl⟩
  · rfl
  · rw [rramAddr_eq s.run.outBank (2 ^ _)] at ha
    rw [State.commitFrame_mem]
    exact Memory.readWord_writeWords_outside _ _ (by rwa [settle_processFrame_words_length])

theorem ActiveCfg.legal.two_pow_log2n_le {c : ActiveCfg} (h : c.legal) : 2 ^ c.log2n.toNat ≤ 1024 :=
  Nat.pow_le_pow_right (n := 2) (by decide) h.2

/-- Every word of a result bank lies below or above the first `n` words of the other one. -/
theorem rramAddr_other_bank {b b' : Bank} (hb : b ≠ b') {k n : Nat} (hk : k < 1024) (hn : n ≤ 1024) :
    rramAddr b k + 4 ≤ rramAddr b' 0 ∨ rramAddr b' n ≤ rramAddr b k := by
  have hne : b.toNat ≠ b'.toNat := fun h => hb (BitVec.eq_of_toNat_eq h)
  unfold rramAddr
  omega

/-- Settles O31: each of the three kinds of word lies outside the frame's result words. -/
theorem completionLeavesOtherWords : Obligations.CompletionLeavesOtherWords := by
  intro s t hlegal _ hturn
  refine ⟨fun k hk _ => ?_, fun b k hb hk => ?_, fun b n hn => ?_⟩ <;>
    apply State.engineTurn_readWord_outside hturn
  · right
    unfold rramAddr
    omega
  · exact rramAddr_other_bank hb hk hlegal.two_pow_log2n_le
  · left
    have hsample := sramAddr_bounds b hn
    have hresult := rramAddr_bounds s.run.outBank (n := 0) (by decide)
    omega

end Sys2Proof.Machine
end

section
/-! The decoder by its fields, and decoder, encoder and opcode map against each other (30_encoding.md R100 to R105). -/
namespace Sys2Proof

/-! ### The fields of a command word as numbers -/

theorem opField_eq_mod (w : Word) : opField w = w.toNat % 256 := by
  simp [opField, BitVec.extractLsb'_toNat]

/-- The bits of a word from `lo` up are its quotient by `2^lo`. -/
theorem upperBits_ne_zero_iff (w : Word) {lo len : Nat} (h : lo + len = 32) :
    (w.extractLsb' lo len != 0) = true ↔ w.toNat / 2 ^ lo ≠ 0 := by
  have hlt : w.toNat / 2 ^ lo < 2 ^ len := Nat.div_lt_of_lt_mul (by rw [← Nat.pow_add, h]; exact w.isLt)
  rw [bne_iff_ne, ← BitVec.toNat_ne_iff_ne, BitVec.extractLsb'_toNat, Nat.shiftRight_eq_div_pow,
    Nat.mod_eq_of_lt hlt]
  rfl

theorem reservedC0_iff (w : Word) : reservedC0 w = true ↔ w.toNat / 256 ≠ 0 :=
  upperBits_ne_zero_iff w (lo := 8) rfl

theorem reservedCP_iff (w : Word) : reservedCP w = true ↔ w.toNat / 1024 ≠ 0 :=
  upperBits_ne_zero_iff w (lo := 10) rfl

/-- A field of one bit is that bit. -/
theorem extractLsb'_one_eq_ofBool (w : Word) (i : Nat) : w.extractLsb' i 1 = BitVec.ofBool (w.getLsbD i) := by
  apply BitVec.eq_of_getLsbD_eq
  intro j hj
  obtain rfl : j = 0 := by omega
  simp

/-! ### The decoder's answers, branch by branch -/

theorem decode_of_illegal_opcode {w : Word} (hop : 7 ≤ w.toNat % 256) : decode w = .illegal .illegalOpcode := by
  rw [decode, opField_eq_mod, if_pos hop]

theorem decode_process_of_reserved {w : Word} (hop : w.toNat % 256 = 2) (hr : w.toNat / 1024 ≠ 0) :
    decode w = .illegal .reservedBits := by
  rw [decode, opField_eq_mod, if_neg (by omega), if_pos hop, if_pos ((reservedCP_iff w).mpr hr)]

theorem decode_process {w : Word} (hop : w.toNat % 256 = 2) (hr : w.toNat / 1024 = 0) :
    decode w = .command (.process (BitVec.ofBool (w.getLsbD 8)) (BitVec.ofBool (w.getLsbD 9))) := by
  rw [decode, opField_eq_mod, if_neg (by omega), if_pos hop, if_neg (fun h => (reservedCP_iff w).mp h hr), inField,
    outField, extractLsb'_one_eq_ofBool, extractLsb'_one_eq_ofBool]

theorem decode_of_reservedC0 {w : Word} (hlt : w.toNat % 256 < 7) (hop : w.toNat % 256 ≠ 2) (hr : w.toNat / 256 ≠ 0) :
    decode w = .illegal .reservedBits := by
  rw [decode, opField_eq_mod, if_neg (by omega), if_neg hop, if_pos ((reservedC0_iff w).mpr hr)]

/-! ### Decoder and encoder -/

@[simp] theorem decode_encode (i : Instr) : decode (encode i) = .command i := by
  cases i with
  | process inBank outBank => revert inBank outBank; decide
  | _ => rfl

theorem encode_eq_of_toNat_eq {w : Word} (i : Instr) (h : w.toNat = (encode i).toNat) : encode i = w :=
  BitVec.eq_of_toNat_eq h.symm

theorem decode_of_toNat_eq {w : Word} (i : Instr) (h : w.toNat = (encode i).toNat) : decode w = .command i := by
  rw [← encode_eq_of_toNat_eq i h, decode_encode]

/-- A word with opcode 2 and no reserved bit set is one of the four words of `PROCESS`. -/
theorem encode_process_of_fields {w : Word} (hop : w.toNat % 256 = 2) (hr : w.toNat / 1024 = 0) :
    ∃ inBank outBank, encode (.process inBank outBank) = w := by
  have words : w.toNat = 0x002 ∨ w.toNat = 0x102 ∨ w.toNat = 0x202 ∨ w.toNat = 0x302 := by omega
  rcases words with h | h | h | h
  · exact ⟨_, _, encode_eq_of_toNat_eq (.process 0 0) h⟩
  · exact ⟨_, _, encode_eq_of_toNat_eq (.process 1 0) h⟩
  · exact ⟨_, _, encode_eq_of_toNat_eq (.process 0 1) h⟩
  · exact ⟨_, _, encode_eq_of_toNat_eq (.process 1 1) h⟩

/-- A word with no bit set above a legal opcode other than 2 is the word of a command without operands. -/
theorem encode_C0_of_fields {w : Word} (hlt : w.toNat % 256 < 7) (hop : w.toNat % 256 ≠ 2) (hr : w.toNat / 256 = 0) :
    ∃ i, encode i = w := by
  have words : w.toNat = 0 ∨ w.toNat = 1 ∨ w.toNat = 3 ∨ w.toNat = 4 ∨ w.toNat = 5 ∨ w.toNat = 6 := by omega
  rcases words with h | h | h | h | h | h
  · exact ⟨_, encode_eq_of_toNat_eq .nop h⟩
  · exact ⟨_, encode_eq_of_toNat_eq .configure h⟩
  · exact ⟨_, encode_eq_of_toNat_eq .abort h⟩
  · exact ⟨_, encode_eq_of_toNat_eq .clipClr h⟩
  · exact ⟨_, encode_eq_of_toNat_eq .clipDec h⟩
  · exact ⟨_, encode_eq_of_toNat_eq .softReset h⟩

/-- Every word is illegal or the word of some command: the branches of R104's pseudocode. -/
theorem decode_illegal_or_exists_encode (w : Word) : (∃ e, decode w = .illegal e) ∨ ∃ i, encode i = w := by
  by_cases hlt : w.toNat % 256 < 7
  · by_cases hop : w.toNat % 256 = 2
    · by_cases hr : w.toNat / 1024 = 0
      · obtain ⟨inBank, outBank, h⟩ := encode_process_of_fields hop hr
        exact .inr ⟨_, h⟩
      · exact .inl ⟨_, decode_process_of_reserved hop hr⟩
    · by_cases hr : w.toNat / 256 = 0
      · exact .inr (encode_C0_of_fields hlt hop hr)
      · exact .inl ⟨_, decode_of_reservedC0 hlt hop hr⟩
  · exact .inl ⟨_, decode_of_illegal_opcode (Nat.le_of_not_lt hlt)⟩

theorem encode_of_decode {w : Word} {i : Instr} (h : decode w = .command i) : encode i = w := by
  rcases decode_illegal_or_exists_encode w with ⟨e, he⟩ | ⟨j, rfl⟩
  · rw [h] at he; cases he
  · rw [decode_encode] at h; cases h; rfl

/-- Settles O3: the branches of the decoder, and the six words without operands as encoded commands. -/
theorem decoderIsTotalOpcodeFirst : Obligations.DecoderIsTotalOpcodeFirst := fun _ =>
  ⟨decode_of_illegal_opcode, decode_process_of_reserved, decode_process, decode_of_reservedC0,
    decode_of_toNat_eq .nop, decode_of_toNat_eq .configure, decode_of_toNat_eq .abort,
    decode_of_toNat_eq .clipClr, decode_of_toNat_eq .clipDec, decode_of_toNat_eq .softReset⟩

/-! ### The opcode map -/

theorem OpRow.selects_iff (r : OpRow) (w : Word) : r.selects w = true ↔ w &&& r.mask = r.word := beq_iff_eq

/-- The word of a command selects the row with its mnemonic, and no other. -/
theorem selectsItsRow (i : Instr) : Laws.SelectsItsRow.Statement i := by
  cases i with
  | nop => exact Laws.SelectsItsRow.nop
  | configure => exact Laws.SelectsItsRow.configure
  | process inBank outBank => exact Laws.SelectsItsRow.process inBank outBank
  | abort => exact Laws.SelectsItsRow.abort
  | clipClr => exact Laws.SelectsItsRow.clipClr
  | clipDec => exact Laws.SelectsItsRow.clipDec
  | softReset => exact Laws.SelectsItsRow.softReset

theorem encode_selects_iff (i : Instr) {r : OpRow} (hr : r ∈ opcodeMap) :
    encode i &&& r.mask = r.word ↔ i.mnemonic = r.mnemonic := by
  rw [← OpRow.selects_iff, selectsItsRow i r hr, decide_eq_true_iff, eq_comm]

/-- A row of the map fixes every bit and holds a command's word, or it is the row of `PROCESS`, which leaves bits 8 and 9
open. -/
theorem opcodeMap_row_cases {r : OpRow} (hr : r ∈ opcodeMap) :
    (r.mask = BitVec.allOnes 32 ∧ ∃ i, encode i = r.word) ∨ (r.mask = 0xFFFFFCFF ∧ r.word = 2) := by
  simp only [opcodeMap, List.mem_cons, List.not_mem_nil, or_false] at hr
  rcases hr with rfl | rfl | rfl | rfl | rfl | rfl | rfl
  · exact .inl ⟨rfl, .nop, rfl⟩
  · exact .inl ⟨rfl, .configure, rfl⟩
  · exact .inr ⟨rfl, rfl⟩
  · exact .inl ⟨rfl, .abort, rfl⟩
  · exact .inl ⟨rfl, .clipClr, rfl⟩
  · exact .inl ⟨rfl, .clipDec, rfl⟩
  · exact .inl ⟨rfl, .softReset, rfl⟩

/-- The mask of `PROCESS` keeps the opcode byte and the reserved bits of format `CP`. -/
theorem process_fields_of_and_mask {w : Word} (h : w &&& 0xFFFFFCFF = 2) :
    w.toNat % 256 = 2 ∧ w.toNat / 1024 = 0 := by
  have hop : opField (w &&& 0xFFFFFCFF) = opField w := by
    rw [opField, BitVec.extractLsb'_and]
    exact congrArg BitVec.toNat (BitVec.and_allOnes (x := w.extractLsb' 0 8))
  have hres : reservedCP (w &&& 0xFFFFFCFF) = reservedCP w := by
    rw [reservedCP, BitVec.extractLsb'_and]
    exact congrArg (· != 0) (BitVec.and_allOnes (x := w.extractLsb' 10 22))
  rw [h] at hop hres
  refine ⟨(opField_eq_mod w).symm.trans hop.symm, not_not.mp fun hne => ?_⟩
  exact absurd (hres.trans ((reservedCP_iff w).mpr hne)) (by decide)

/-- A word that selects a row is the word of a command. -/
theorem exists_encode_of_selects {w : Word} {r : OpRow} (hr : r ∈ opcodeMap) (h : w &&& r.mask = r.word) :
    ∃ i, encode i = w := by
  rcases opcodeMap_row_cases hr with ⟨hmask, i, hi⟩ | ⟨hmask, hword⟩
  · rw [hmask, BitVec.and_allOnes] at h
    exact ⟨i, hi.trans h.symm⟩
  · rw [hmask, hword] at h
    obtain ⟨hop, hres⟩ := process_fields_of_and_mask h
    obtain ⟨inBank, outBank, hw⟩ := encode_process_of_fields hop hres
    exact ⟨_, hw⟩

theorem selects_iff_decode {w : Word} {r : OpRow} (hr : r ∈ opcodeMap) :
    w &&& r.mask = r.word ↔ ∃ i, decode w = .command i ∧ i.mnemonic = r.mnemonic := by
  constructor
  · intro h
    obtain ⟨i, rfl⟩ := exists_encode_of_selects hr h
    exact ⟨i, decode_encode i, (encode_selects_iff i hr).mp h⟩
  · rintro ⟨i, hi, hm⟩
    rw [← encode_of_decode hi]
    exact (encode_selects_iff i hr).mpr hm

/-- Settles O2: a row and a decoded command select the same words, by way of the command's own word. -/
theorem decoderFollowsOpcodeMap : Obligations.DecoderFollowsOpcodeMap :=
  ⟨fun _ _ hr => selects_iff_decode hr, fun _ hop => ⟨_, decode_of_illegal_opcode hop⟩,
    decode_encode (.process 0 0), decode_encode (.process 1 0), decode_encode (.process 0 1), decode_encode (.process 1 1)⟩

end Sys2Proof
end

section
/-! The size clamp of `CONFIGURE` (40_commands.md R123): the loop stops at the largest size that fits the width. -/
namespace Sys2Proof.Machine

theorem clampLoop_le (width fuel l : Nat) : clampLoop width fuel l ≤ l := by
  fun_induction clampLoop width fuel l with
  | case1 l => exact Nat.le_refl l
  | case2 fuel l _ ih => omega
  | case3 fuel l _ => exact Nat.le_refl l

/-- With a pass for each size above 64, the loop ends because the size fits the width or is the smallest one. -/
theorem clampLoop_fits_or_eq_min (width fuel l : Nat) (hmin : 6 ≤ l) (hfuel : l ≤ 6 + fuel) :
    2 ^ clampLoop width fuel l ≤ width ∨ clampLoop width fuel l = 6 := by
  fun_induction clampLoop width fuel l with
  | case1 l => right; omega
  | case2 fuel l h ih =>
    have habove : 6 < l := h.1
    exact ih (by omega) (by omega)
  | case3 fuel l h =>
    have hstop : ¬(6 < l ∧ width < 2 ^ l) := h
    omega

/-- The loop passes over no size that fits the width. -/
theorem le_clampLoop_of_fits {width l' : Nat} (fuel l : Nat) (hle : l' ≤ l) (hfits : 2 ^ l' ≤ width) :
    l' ≤ clampLoop width fuel l := by
  fun_induction clampLoop width fuel l with
  | case1 l => exact hle
  | case2 fuel l h ih =>
    have hne : l' ≠ l := by
      rintro rfl
      exact absurd h.2 (Nat.not_lt.mpr hfits)
    exact ih (by omega)
  | case3 fuel l _ => exact hle

/-- The size the clamp starts from: the request, brought into the supported sizes. -/
def clampStart (req : Nat) : Nat := min (max req Config.minLog2n) Config.maxLog2n

/-- `clampN` runs the loop from `clampStart`. -/
theorem clampN_fst (req width : Nat) : (clampN req width).1 = clampLoop width 4 (clampStart req) := rfl

theorem clampStart_eq (req : Nat) : clampStart req = min (max req 6) 10 := rfl

theorem clampStart_bounds (req : Nat) : 6 ≤ clampStart req ∧ clampStart req ≤ 10 := by
  rw [clampStart_eq]
  omega

theorem clampN_bounds (req width : Nat) : 6 ≤ (clampN req width).1 ∧ (clampN req width).1 ≤ 10 :=
  have ⟨hlo, hhi⟩ := clampStart_bounds req
  clampN_fst req width ▸ clampLoop_bounds width 4 _ hlo hhi

theorem clampN_le_request_or_eq_min (req width : Nat) : (clampN req width).1 ≤ req ∨ (clampN req width).1 = 6 := by
  have hmin := (clampN_bounds req width).1
  have hle : (clampN req width).1 ≤ min (max req 6) 10 :=
    (clampN_fst req width).trans_le (clampLoop_le width 4 (clampStart req))
  omega

theorem clampN_fits_or_eq_min (req width : Nat) : 2 ^ (clampN req width).1 ≤ width ∨ (clampN req width).1 = 6 :=
  have ⟨hlo, hhi⟩ := clampStart_bounds req
  clampN_fst req width ▸ clampLoop_fits_or_eq_min width 4 _ hlo hhi

theorem le_clampN {req width l' : Nat} (hmax : l' ≤ 10) (hreq : l' ≤ req) (hfits : 2 ^ l' ≤ width) :
    l' ≤ (clampN req width).1 := by
  have hstart : l' ≤ clampStart req := by rw [clampStart_eq]; omega
  rw [clampN_fst]
  exact le_clampLoop_of_fits 4 _ hstart hfits

theorem clampN_flag_iff (req width : Nat) : (clampN req width).2 = true ↔ (clampN req width).1 ≠ req := bne_iff_ne

/-- Settles O16: the bounds and the maximality of the loop's result, carried over the start of the clamp. -/
theorem clampGivesTheLargestFittingSize : Obligations.ClampGivesTheLargestFittingSize := by
  refine ⟨fun req width _ _ => ?_, by decide⟩
  obtain ⟨hmin, hmax⟩ := clampN_bounds req width
  exact ⟨hmin, hmax, clampN_le_request_or_eq_min req width, clampN_fits_or_eq_min req width,
    fun l' _ hmax' hreq hfits => le_clampN hmax' hreq hfits, clampN_flag_iff req width⟩

end Sys2Proof.Machine
end

section
/-! The frame result as a function of samples, configuration and threshold (40_commands.md R126): what a completion without
a hazard fetches, computes and leaves. -/
namespace Sys2Proof.Machine

/-! ### The statistics of a frame -/

theorem maxAbs_le {bound : Nat} {xs : List Int} (h : ∀ v ∈ xs, v.natAbs ≤ bound) : maxAbs xs ≤ bound := by
  induction xs with
  | nil => exact Nat.zero_le bound
  | cons v vs ih =>
    obtain ⟨hv, hvs⟩ := List.forall_mem_cons.mp h
    exact Nat.max_le.mpr ⟨hv, ih hvs⟩

theorem natAbs_sext16_le (v : Half) : (sext16 v).natAbs ≤ 32768 := by
  have hlo := BitVec.le_toInt v
  have hhi := BitVec.toInt_lt (x := v)
  unfold sext16
  omega

theorem maxAbs_fetchChannels_le (ws : List Word) :
    maxAbs (fetchChannels ws).i ≤ 32768 ∧ maxAbs (fetchChannels ws).q ≤ 32768 :=
  ⟨maxAbs_le (List.forall_mem_map.mpr fun _ _ => natAbs_sext16_le _),
    maxAbs_le (List.forall_mem_map.mpr fun _ _ => natAbs_sext16_le _)⟩

/-- The maxima of a frame fit their registers (10_state.md R32). -/
theorem processFrame_max_toNat (cfg : ActiveCfg) (thresh : Half) (ws : List Word) :
    (processFrame cfg thresh ws).maxI.toNat = maxAbs (fetchChannels ws).i ∧
    (processFrame cfg thresh ws).maxQ.toNat = maxAbs (fetchChannels ws).q := by
  obtain ⟨hi, hq⟩ := maxAbs_fetchChannels_le ws
  exact ⟨(BitVec.toNat_ofNat _ _).trans (Nat.mod_eq_of_lt (by omega)),
    (BitVec.toNat_ofNat _ _).trans (Nat.mod_eq_of_lt (by omega))⟩

theorem clipTest_iff (mi mq : Nat) (thresh : Half) :
    clipTest mi mq thresh = true ↔ thresh.toNat < mi ∨ thresh.toNat < mq := by
  simp [clipTest]

/-- The clip outcome of a frame can be read off its two maxima (41_frontend.md R163). -/
theorem processFrame_clipped_iff (cfg : ActiveCfg) (thresh : Half) (ws : List Word) :
    (processFrame cfg thresh ws).clipped = true ↔
      thresh.toNat < (processFrame cfg thresh ws).maxI.toNat ∨
      thresh.toNat < (processFrame cfg thresh ws).maxQ.toNat := by
  obtain ⟨hi, hq⟩ := processFrame_max_toNat cfg thresh ws
  rw [hi, hq]
  exact clipTest_iff _ _ thresh

@[simp] theorem processFrame_words_length (cfg : ActiveCfg) (thresh : Half) (ws : List Word) :
    (processFrame cfg thresh ws).words.length = 2 ^ cfg.log2n.toNat := by
  simp [processFrame]

/-! ### The fetch -/

/-- Two runs, wherever they lie, answer alike when their words do. -/
theorem Memory.readWords_congr_words {m m' : Memory} {a a' n : Nat}
    (h : ∀ k, k < n → m.readWord (a + 4 * k) = m'.readWord (a' + 4 * k)) : m.readWords a n = m'.readWords a' n := by
  ext ws
  rw [Memory.readWords_eq_some, Memory.readWords_eq_some]
  refine and_congr_right fun hlen => forall₂_congr fun k hk => ?_
  rw [h k (hlen ▸ hk)]

theorem fetchWords_congr {m m' : Memory} {b b' : Bank} {n : Nat}
    (h : ∀ k, k < n → m.readWord (sramAddr b k) = m'.readWord (sramAddr b' k)) :
    fetchWords m b n = fetchWords m' b' n :=
  Memory.readWords_congr_words fun k hk => by
    rw [← sramAddr_eq, ← sramAddr_eq]
    exact h k hk

/-! ### The completion -/

/-- Result word `k` after a commit is the `k`-th word of the result. -/
theorem State.commitFrame_readWord (s : State) (r : FrameResult) {k : Nat} (hk : k < r.words.length) :
    (s.commitFrame r).mem.readWord (rramAddr s.run.outBank k) = some r.words[k] := by
  rw [State.commitFrame_mem, rramAddr_eq]
  exact Memory.readWord_writeWords r.words s.mem _ k hk

/-- Without a hazard, the completion of a running frame goes on exactly when its samples can be fetched, and commits the
frame computed from them. -/
theorem State.engineTurn_clear_iff {s : State} (hbusy : s.run.state = .busy) (hclear : s.frameHazard = FrameHazard.clear)
    (t : State) :
    s.engineTurn = .next t ↔ ∃ ws, fetchWords s.mem s.run.inBank s.frameSize = some ws ∧
      t = s.commitFrame (processFrame s.run.cfg s.run.thresh ws) := by
  have hturn : s.engineTurn = s.complete := by simp only [State.engineTurn, hbusy]
  rw [hturn]
  rcases State.complete_cases s with ⟨hfault, hnone⟩ | ⟨ws, hsome, hnext⟩
  · simp [hfault, hnone]
  · simp [hsome, hnext, hclear, settle_clear, eq_comm]

/-- Settles O32: both completions commit the one result that `processFrame` gives of the common samples, configuration and
threshold. -/
theorem frameResultDependsOnItsInputsOnly : Obligations.FrameResultDependsOnItsInputsOnly := by
  intro s s' t hbusy hbusy' hclear hclear' hcfg hthresh hsamples hturn
  obtain ⟨ws, hfetch, rfl⟩ := (State.engineTurn_clear_iff hbusy hclear t).mp hturn
  have hsize : s'.frameSize = s.frameSize := congrArg ActiveCfg.points hcfg.symm
  have hfetch' : fetchWords s'.mem s'.run.inBank s'.frameSize = some ws := by
    rw [hsize]
    exact (fetchWords_congr hsamples).symm.trans hfetch
  have hturn' := (State.engineTurn_clear_iff hbusy' hclear' _).mpr ⟨ws, hfetch', rfl⟩
  rw [← hcfg, ← hthresh] at hturn'
  refine ⟨_, _, hturn', rfl, rfl, fun k hk => ?_, processFrame_clipped_iff s.run.cfg s.run.thresh ws, rfl, rfl, rfl, rfl⟩
  have hword : k < (processFrame s.run.cfg s.run.thresh ws).words.length := by rwa [processFrame_words_length]
  rw [State.commitFrame_readWord s _ hword, State.commitFrame_readWord s' _ hword]

end Sys2Proof.Machine
end

section
/-! The front end's lag fix and swap (41_frontend.md R161, R166, R167). The delay is a rotation of the channel, so its
samples, its length and its maximum are those of a rotation. -/
namespace Sys2Proof.Machine

/-! ### The delay -/

theorem delayOne_nil : delayOne [] = [] := rfl

/-- The last sample of the frame becomes its first (41_frontend.md R166). -/
theorem delayOne_concat (xs : List Int) (z : Int) : delayOne (xs ++ [z]) = z :: xs := by
  simp [delayOne]

/-- A delay by one sample is a rotation that takes all samples but one to the back. -/
theorem delayOne_eq_rotate (q : List Int) : delayOne q = q.rotate (q.length - 1) := by
  rcases List.eq_nil_or_concat' q with rfl | ⟨xs, z, rfl⟩
  · rw [delayOne_nil, List.rotate_nil]
  · have hlen : (xs ++ [z]).length - 1 = xs.length := by simp
    rw [delayOne_concat, hlen, List.rotate_append_length_eq, List.singleton_append]

theorem delayOne_perm (q : List Int) : (delayOne q).Perm q :=
  delayOne_eq_rotate q ▸ q.rotate_perm (q.length - 1)

theorem delayOne_getD (q : List Int) {n : Nat} (hn : n < q.length) :
    (delayOne q).getD n 0 = q.getD ((n + q.length - 1) % q.length) 0 := by
  have hshift : n + (q.length - 1) = n + q.length - 1 := by omega
  rw [delayOne_eq_rotate, List.getD_eq_getElem?_getD, List.getElem?_rotate hn, hshift, List.getD_eq_getElem?_getD]

/-- The maximum does not depend on the order of the samples. -/
theorem maxAbs_perm {xs ys : List Int} (h : xs.Perm ys) : maxAbs xs = maxAbs ys := by
  induction h with
  | nil => rfl
  | cons v _ ih => exact congrArg (max v.natAbs) ih
  | swap v w vs => exact Nat.max_left_comm w.natAbs v.natAbs (maxAbs vs)
  | trans _ _ ih₁ ih₂ => exact ih₁.trans ih₂

/-! ### The lag fix and the swap -/

theorem lagfix_off (c : Channels) : lagfix c false = c := rfl

theorem lagfix_on (c : Channels) : lagfix c true = { i := c.i, q := delayOne c.q } := rfl

theorem revIq_off (c : Channels) : revIq c false = c := rfl

theorem revIq_on (c : Channels) : revIq c true = { i := c.q, q := c.i } := rfl

/-! ### The order of the front end -/

/-- The lag fix comes before the swap, and the swap before the window (41_frontend.md R161). -/
theorem frontEnd_eq (cfg : ActiveCfg) (c : Channels) :
    frontEnd cfg c = applyWindow (revIq (lagfix c cfg.lagfix) cfg.revIq) cfg.winsel (2 ^ cfg.log2n.toNat) := rfl

theorem frameDb_eq (cfg : ActiveCfg) (c : Channels) :
    frameDb cfg c = logPower (fft cfg.log2n.toNat (frontEnd cfg c)) := rfl

theorem processFrame_words (cfg : ActiveCfg) (thresh : Half) (ws : List Word) :
    (processFrame cfg thresh ws).words = (frameDb cfg (fetchChannels ws)).map trunc32 := rfl

/-- The clip test of a frame is of its raw samples (41_frontend.md R161, R163). -/
theorem processFrame_clipped_iff_raw (cfg : ActiveCfg) (thresh : Half) (ws : List Word) :
    (processFrame cfg thresh ws).clipped = true ↔
      thresh.toNat < maxAbs (fetchChannels ws).i ∨ thresh.toNat < maxAbs (fetchChannels ws).q :=
  clipTest_iff _ _ thresh

/-- Settles O41: the delay is a rotation of Q, and a frame takes its statistics before the lag fix and its words after the
window. -/
theorem lagfixIsACircularDelay : Obligations.LagfixIsACircularDelay := by
  refine ⟨fun c => ?channels, fun cfg c => ⟨frontEnd_eq cfg c, frameDb_eq cfg c⟩, fun cfg thresh ws => ?frame⟩
  case channels =>
    rw [lagfix_on, revIq_on]
    exact ⟨lagfix_off c, rfl, (delayOne_perm c.q).length_eq, fun _ hn => delayOne_getD c.q hn,
      maxAbs_perm (delayOne_perm c.q), revIq_off c, rfl, rfl⟩
  case frame =>
    obtain ⟨hmaxI, hmaxQ⟩ := processFrame_max_toNat cfg thresh ws
    exact ⟨hmaxI, hmaxQ, processFrame_clipped_iff_raw cfg thresh ws, processFrame_words cfg thresh ws⟩

end Sys2Proof.Machine
end

section
/-! The bit reversal and the load of the work buffer (42_fft.md R181, R186). One bit more of reversal puts the next bit of
the index below all bits reversed so far, and every fact about `bitrev` follows along this recursion. -/
namespace Sys2Proof.Machine

/-! ### The bit reversal -/

/-- The weight of each bit already reversed doubles, and the new bit has weight 1. -/
theorem bitrev_succ (bits n : Nat) : bitrev (bits + 1) n = Nat.bit (n.testBit bits) (bitrev bits n) := by
  have hdouble : ∀ i ∈ List.range bits,
      n / 2 ^ i % 2 * 2 ^ (bits + 1 - 1 - i) = 2 * (n / 2 ^ i % 2 * 2 ^ (bits - 1 - i)) := by
    intro i hi
    have hexp : bits + 1 - 1 - i = (bits - 1 - i) + 1 := by
      have hlt := List.mem_range.mp hi
      omega
    rw [hexp, Nat.pow_succ']
    exact Nat.mul_left_comm _ _ _
  rw [bitrev, List.range_succ, List.map_append, List.sum_append, List.map_congr_left hdouble, List.sum_map_mul_left,
    Nat.bit_val, Nat.toNat_testBit]
  simp [bitrev]

theorem bitrev_lt (bits n : Nat) : bitrev bits n < 2 ^ bits := by
  induction bits with
  | zero => exact Nat.one_pos
  | succ bits ih =>
    have hbit := (n.testBit bits).toNat_lt
    rw [bitrev_succ, Nat.bit_val, Nat.pow_succ']
    omega

theorem testBit_bitrev (n : Nat) {bits i : Nat} (hi : i < bits) :
    (bitrev bits n).testBit i = n.testBit (bits - 1 - i) := by
  induction bits generalizing i with
  | zero => exact absurd hi (Nat.not_lt_zero i)
  | succ bits ih =>
    rw [bitrev_succ]
    cases i with
    | zero => exact Nat.testBit_bit_zero _ _
    | succ i =>
      rw [Nat.testBit_bit_succ, ih (Nat.lt_of_succ_lt_succ hi)]
      congr 1
      omega

/-- The reversal of the positions undoes itself, bit by bit; above the low `bits` both numbers have no bit. -/
theorem bitrev_bitrev {bits n : Nat} (hn : n < 2 ^ bits) : bitrev bits (bitrev bits n) = n := by
  apply Nat.eq_of_testBit_eq
  intro i
  rcases Nat.lt_or_ge i bits with hi | hi
  · have hmirror : bits - 1 - (bits - 1 - i) = i := by omega
    rw [testBit_bitrev _ hi, testBit_bitrev _ (by omega), hmirror]
  · have hpow := Nat.pow_le_pow_right Nat.two_pos hi
    rw [Nat.testBit_lt_two_pow (hn.trans_le hpow), Nat.testBit_lt_two_pow ((bitrev_lt bits _).trans_le hpow)]

/-- Settles O43: range, involution and mirrored bits of `bitrev`, each by its recursion on the number of bits. -/
theorem bitReversalReversesTheBits : Obligations.BitReversalReversesTheBits :=
  ⟨fun bits n hn => ⟨bitrev_lt bits n, bitrev_bitrev hn, fun _ hi => testBit_bitrev n hi⟩, by decide⟩

/-! ### The load -/

/-- The value that a sample takes in the work buffer: both components shifted left by the guard shift (42_fft.md R181). -/
def guarded (c : Channels) (n : Nat) : Cplx := { re := c.i.getD n 0 * 64, im := c.q.getD n 0 * 64 }

theorem loadBuffer_eq_map_guarded (bits : Nat) (c : Channels) :
    loadBuffer bits c = (List.range (2 ^ bits)).map fun m => guarded c (bitrev bits m) := rfl

/-- Place `bitrev n` holds sample `bitrev (bitrev n)`, which is sample `n`. -/
theorem loadBuffer_getD_bitrev {bits n : Nat} (c : Channels) (hn : n < 2 ^ bits) (d : Cplx) :
    (loadBuffer bits c).getD (bitrev bits n) d = guarded c n := by
  have hplace : bitrev bits n < (loadBuffer bits c).length := by
    rw [loadBuffer_length]
    exact bitrev_lt bits n
  rw [List.getD_eq_getElem _ _ hplace]
  simp only [loadBuffer_eq_map_guarded, List.getElem_map, List.getElem_range, bitrev_bitrev hn]

theorem sampleRange_getD {xs : List Int} (h : ∀ v ∈ xs, SampleRange v) {n : Nat} (hn : n < xs.length) :
    SampleRange (xs.getD n 0) := by
  rw [List.getD_eq_getElem _ _ hn]
  exact h _ (List.getElem_mem hn)

/-- The extremes of a 16-bit sample, times 64. -/
theorem SampleRange.mul_guard_bounds {v : Int} (h : SampleRange v) : -(2 ^ 21) ≤ v * 64 ∧ v * 64 ≤ 2 ^ 21 - 64 := by
  obtain ⟨hlo, hhi⟩ := h
  omega

theorem FrameSamples.guarded_bounds {N n : Nat} {c : Channels} (h : FrameSamples N c) (hn : n < N) :
    -(2 ^ 21) ≤ (guarded c n).re ∧ (guarded c n).re ≤ 2 ^ 21 - 64 ∧
    -(2 ^ 21) ≤ (guarded c n).im ∧ (guarded c n).im ≤ 2 ^ 21 - 64 := by
  obtain ⟨hlenI, hlenQ, hi, hq⟩ := h
  obtain ⟨hreLo, hreHi⟩ := (sampleRange_getD hi (hn.trans_eq hlenI.symm)).mul_guard_bounds
  obtain ⟨himLo, himHi⟩ := (sampleRange_getD hq (hn.trans_eq hlenQ.symm)).mul_guard_bounds
  exact ⟨hreLo, hreHi, himLo, himHi⟩

/-- Settles O44: the place of a sample by the involution of `bitrev`, the range by that of the samples. -/
theorem loadPlacesSamplesBitReversed : Obligations.LoadPlacesSamplesBitReversed := by
  intro bits c hframe
  refine ⟨loadBuffer_length bits c, fun n hn => loadBuffer_getD_bitrev c hn _, ?range⟩
  case range =>
    rw [loadBuffer_eq_map_guarded]
    exact List.forall_mem_map.mpr fun m _ => hframe.guarded_bounds (bitrev_lt bits m)

end Sys2Proof.Machine
end

section
/-! The range of the log-power converter (43_logpower.md R203 to R205). The logarithm of a power below `2^44` lies between 0
and the largest value that the exponent 43 and the ROM's last entry give, and the conversion to dB keeps the order. -/
namespace Sys2Proof.Machine

/-! ### The logarithm ROM -/

theorem forall_mem_getD {α : Type} {P : α → Prop} {l : List α} {d : α} (hd : P d) (h : ∀ x ∈ l, P x) (i : Nat) :
    P (l.getD i d) := by
  rcases Nat.lt_or_ge i l.length with hi | hi
  · rw [List.getD_eq_getElem _ _ hi]
    exact h _ (List.getElem_mem hi)
  · rwa [List.getD_eq_default _ _ hi]

theorem logRows_entry_le : ∀ row ∈ logRows, ∀ x ∈ row, x ≤ 65490 := by decide +kernel

/-- The largest entry of the ROM (R204). -/
theorem logLut_le (i : Nat) : logLut i ≤ 65490 :=
  have hrow : ∀ x ∈ logRows.getD (i / 16) [], x ≤ 65490 :=
    forall_mem_getD (P := fun row => ∀ x ∈ row, x ≤ 65490) (List.forall_mem_nil _) logRows_entry_le _
  forall_mem_getD (P := (· ≤ 65490)) (Nat.zero_le _) hrow _

/-! ### The logarithm -/

theorem log2q_le_of_log2 (pf : Nat) : log2q pf ≤ Nat.log2 pf * 65536 + 65490 :=
  Nat.add_le_add_left (logLut_le _) _

theorem floorPower_pos (p : Nat) : 0 < floorPower p := Nat.le_max_right p 1

/-- The floor keeps a power within its 44 bits, so the leading 1 stands at bit 43 or below. -/
theorem log2_floorPower_le {p : Nat} (hp : p < 2 ^ 44) : Nat.log2 (floorPower p) ≤ 43 := by
  have hfloor : floorPower p < 2 ^ 44 := Nat.max_lt.mpr ⟨hp, by decide⟩
  exact Nat.le_of_lt_succ ((Nat.log2_lt (floorPower_pos p).ne').mpr hfloor)

theorem log2q_floorPower_le {p : Nat} (hp : p < 2 ^ 44) : log2q (floorPower p) ≤ 43 * 65536 + 65490 :=
  calc log2q (floorPower p) ≤ Nat.log2 (floorPower p) * 65536 + 65490 := log2q_le_of_log2 _
    _ ≤ 43 * 65536 + 65490 := Nat.add_le_add_right (Nat.mul_le_mul_right _ (log2_floorPower_le hp)) _

theorem log2q_floorPower_zero : log2q (floorPower 0) = 0 := by decide +kernel

theorem log2q_floorPower_top : log2q (floorPower (2 ^ 44 - 1)) = 43 * 65536 + 65490 := by decide +kernel

/-! ### The conversion to dB -/

theorem rnd_mono {v w : Int} (h : v ≤ w) (s : Nat) : rnd v s ≤ rnd w s :=
  Int.ediv_le_ediv (by positivity) (Int.add_le_add_right h _)

theorem dbQ8_mono {l m : Nat} (h : l ≤ m) : dbQ8 l ≤ dbQ8 m :=
  rnd_mono (by omega) 24

/-- R202: the floor output. -/
theorem dbQ8_zero : dbQ8 0 = -32367 := by decide

theorem dbQ8_top : dbQ8 (43 * 65536 + 65490) = 1541 := by decide

/-- Settles O50: the logarithm lies between those of the two end powers, and `dbQ8` is monotone. -/
theorem converterRangeIsSigned16Bit : Obligations.ConverterRangeIsSigned16Bit := by
  refine ⟨fun p hp => ⟨?lower, ?upper⟩, ?floor, ?top⟩
  case lower => exact dbQ8_zero ▸ dbQ8_mono (Nat.zero_le _)
  case upper => exact dbQ8_top ▸ dbQ8_mono (log2q_floorPower_le hp)
  case floor => rw [log2q_floorPower_zero, dbQ8_zero]
  case top => rw [log2q_floorPower_top, dbQ8_top]

end Sys2Proof.Machine
end

section
/-! The rejection of a command (60_exceptions.md R221 to R227): the decoder's two codes stand before the two codes that a
command checks itself, and every rejection is `State.reject` of the word issued. -/
namespace Sys2Proof

/-- A reserved bit is set in the format that the opcode of the word selects (30_encoding.md R101). -/
def ReservedBitSet (w : Word) : Prop :=
  (w.toNat % 256 = 2 ∧ w.toNat / 1024 ≠ 0) ∨ (w.toNat % 256 ≠ 2 ∧ w.toNat / 256 ≠ 0)

/-- Under a legal opcode the decoder answers code 2 in either format. -/
theorem decode_of_reservedBitSet {w : Word} (hlt : w.toNat % 256 < 7) (hr : ReservedBitSet w) :
    decode w = .illegal .reservedBits := by
  rcases hr with ⟨hop, hbits⟩ | ⟨hop, hbits⟩
  · exact decode_process_of_reserved hop hbits
  · exact decode_of_reservedC0 hlt hop hbits

/-- The commands that wait for IDLE: those that a running frame turns away (60_exceptions.md R224). -/
def Instr.NeedsIdle (i : Instr) : Prop := i = .configure ∨ ∃ inBank outBank, i = .process inBank outBank

/-- A word with opcode 1 or 2 and no reserved bit is the word of `CONFIGURE` or of some `PROCESS`. -/
theorem exists_needsIdle_of_fields {w : Word} (hr : ¬ReservedBitSet w) (hop : w.toNat % 256 = 1 ∨ w.toNat % 256 = 2) :
    ∃ i : Instr, i.NeedsIdle ∧ encode i = w := by
  unfold ReservedBitSet at hr
  rcases hop with hop | hop
  · have hw : w.toNat = 1 := by omega
    exact ⟨.configure, .inl rfl, encode_eq_of_toNat_eq .configure hw⟩
  · have hbits : w.toNat / 1024 = 0 := by omega
    obtain ⟨inBank, outBank, hw⟩ := encode_process_of_fields hop hbits
    exact ⟨_, .inr ⟨inBank, outBank, rfl⟩, hw⟩

namespace Machine

/-! ### The issue step -/

theorem State.issue_of_illegal (s : State) {w : Word} {e : CmdError} (h : decode w = .illegal e) :
    s.issue w = .next (s.reject e w) := by
  rw [State.issue, h]

/-- The word of a command runs that command. -/
@[simp] theorem State.issue_encode (s : State) (i : Instr) : s.issue (encode i) = exec i s := by
  rw [State.issue, decode_encode]

/-! ### The checks of the commands -/

theorem exec_configure (s : State) : exec .configure s = execConfigure s := rfl

theorem exec_process (s : State) (inBank outBank : Bank) :
    exec (.process inBank outBank) s = execProcess inBank outBank s := rfl

/-- Code 3: while a frame runs, a command that waits for IDLE is rejected before it checks anything else. -/
theorem exec_of_needsIdle_of_busy {s : State} {i : Instr} (hi : i.NeedsIdle) (hbusy : s.run.state = .busy) :
    exec i s = .next (s.reject .busy (encode i)) := by
  rcases hi with rfl | ⟨inBank, outBank, rfl⟩
  · rw [exec_configure, execConfigure, hbusy]
  · rw [exec_process, execProcess, hbusy]

theorem ctrlWinsel_toNat (ctrl : BitVec 8) : (ctrlWinsel ctrl).toNat = ctrl.toNat / 16 % 4 := by
  rw [ctrlWinsel, BitVec.extractLsb'_toNat, Nat.shiftRight_eq_div_pow]

theorem ctrlWinsel_eq_three_iff (ctrl : BitVec 8) : ctrlWinsel ctrl = 3 ↔ ctrl.toNat / 16 % 4 = 3 := by
  rw [← BitVec.toNat_inj, ctrlWinsel_toNat]
  rfl

/-- Code 4: in IDLE, `CONFIGURE` is rejected for the selector that names no window. -/
theorem exec_configure_of_reservedWindow {s : State} (hidle : s.run.state = .idle) (hwin : s.ctrl.toNat / 16 % 4 = 3) :
    exec .configure s = .next (s.reject .badWindow (encode .configure)) := by
  have hnone : winSelOf (ctrlWinsel s.ctrl) = none :=
    (winSelOf_eq_none_iff _).mpr ((ctrlWinsel_eq_three_iff s.ctrl).mpr hwin)
  simp only [exec_configure, execConfigure, hidle, hnone]

/-- Settles O10: the rejection with code 4, whose record is the word of `CONFIGURE`. -/
theorem reservedWindowIsRejected : Obligations.ReservedWindowIsRejected :=
  fun _ hidle hwin => exec_configure_of_reservedWindow hidle hwin

/-- Settles O7: codes 1 and 2 by the decoder's answer, codes 3 and 4 by the check of the command that the word encodes. -/
theorem rejectionRecordsTheFirstCode : Obligations.RejectionRecordsTheFirstCode := by
  intro s w
  refine ⟨fun hop => ?illegalOpcode, fun hlt hr => ?reservedBits, fun hr hop hbusy => ?busy,
    fun hw hidle hwin => ?badWindow⟩
  case illegalOpcode => exact s.issue_of_illegal (decode_of_illegal_opcode hop)
  case reservedBits => exact s.issue_of_illegal (decode_of_reservedBitSet hlt hr)
  case busy =>
    obtain ⟨i, hi, rfl⟩ := exists_needsIdle_of_fields hr hop
    exact (s.issue_encode i).trans (exec_of_needsIdle_of_busy hi hbusy)
  case badWindow =>
    obtain rfl := encode_eq_of_toNat_eq .configure hw
    exact (s.issue_encode .configure).trans (exec_configure_of_reservedWindow hidle hwin)

end Machine
end Sys2Proof
end

section
/-! Reset (70_reset_and_hazards.md R260): the reset state register by register, and the reset input as a step. -/
namespace Sys2Proof.Machine

/-! ### The reset state -/

/-- The staged `CTRL` and `DISP_WIDTH` of reset ask for the configuration that is active then. -/
theorem configured_reset : configured State.reset.ctrl State.reset.dispWidth .hann = ActiveCfg.reset := by decide

theorem exec_configure_reset : exec .configure State.reset = .next State.reset := by
  change Host.Outcome.next { State.reset with activeCfg := configured State.reset.ctrl State.reset.dispWidth .hann } = _
  rw [configured_reset]
  rfl

/-! ### The reset input -/

theorem State.dueTurn_of_turns {s : State} {u : Turn} {rest : List Turn} (h : s.turns = u :: rest) : s.dueTurn = u := by
  rw [State.dueTurn, h]

/-- A scheduled reset is the reset input, its turn used up. -/
theorem step_of_reset_due {s : State} {rest : List Turn} (h : s.turns = .reset :: rest) :
    step s = .next (State.resetInput { s with turns := s.turns.tail }) := by
  have hdue := State.dueTurn_of_turns h
  rcases step_cases s with ⟨hhost, _⟩ | ⟨hengine, _⟩ | ⟨_, hstep⟩
  · cases hdue.symm.trans hhost
  · cases hdue.symm.trans hengine
  · exact hstep

/-- The reset input gives the reset state but for what lies outside the block. -/
theorem State.resetInput_eq (s : State) : s.resetInput = { State.reset with
    hazards := s.hazards, draws := s.draws, host := s.host, turns := s.turns, rdata := s.rdata } := rfl

/-- Settles O52: the values of the reset state by evaluation, its RAM as the empty memory, the reset input by
`State.resetInput_eq`. -/
theorem resetGivesTheSpecsState : Obligations.ResetGivesTheSpecsState :=
  ⟨rfl, rfl, rfl, rfl, rfl, rfl, rfl, Memory.readByte_nil, exec_configure_reset,
    fun _ _ hturns => ⟨_, step_of_reset_due hturns, State.resetInput_eq _⟩⟩

end Sys2Proof.Machine
end

section
/-! Double buffering (70_reset_and_hazards.md R273): a store outside the words a running frame reads and writes is no hazard,
and it commutes with the frame's completion. -/
namespace Sys2Proof.Machine

/-! ### Words outside a frame -/

/-- The result RAM lies two banks above the sample RAM, word for word (20_memory.md R60). -/
theorem rramAddr_eq_sramAddr_add (b : Bank) (n : Nat) : rramAddr b n = sramAddr b n + 0x2000 := by
  unfold rramAddr sramAddr
  omega

/-- A result word of the other bank, or from word `N` on, lies outside the first `N` words of a bank. -/
theorem rramAddr_outside_frame {b b' : Bank} {n N : Nat} (h : b ≠ b' ∨ N ≤ n) (hn : n < 1024) (hN : N ≤ 1024) :
    rramAddr b n + 4 ≤ rramAddr b' 0 ∨ rramAddr b' N ≤ rramAddr b n := by
  by_cases hb : b = b'
  · subst hb
    have hle : N ≤ n := h.resolve_left (not_not_intro rfl)
    right
    unfold rramAddr
    omega
  · exact rramAddr_other_bank hb hn hN

theorem sramAddr_outside_frame {b b' : Bank} {n N : Nat} (h : b ≠ b' ∨ N ≤ n) (hn : n < 1024) (hN : N ≤ 1024) :
    sramAddr b n + 4 ≤ sramAddr b' 0 ∨ sramAddr b' N ≤ sramAddr b n := by
  have hresult := rramAddr_outside_frame h hn hN
  simp only [rramAddr_eq_sramAddr_add] at hresult
  omega

/-- The banks of the sample RAM end where those of the result RAM begin. -/
theorem sramAddr_le_rramAddr (b b' : Bank) {n N : Nat} (hN : N ≤ 1024) : sramAddr b N ≤ rramAddr b' n := by
  have hb := b.isLt
  unfold sramAddr rramAddr
  omega

/-! ### A write outside the frame is no hazard -/

theorem State.frameReads_iff (s : State) (b : Bank) (n : Nat) :
    s.frameReads b n = true ↔ (s.run.state = .busy ∧ b = s.run.inBank) ∧ n < 2 ^ s.run.cfg.log2n.toNat := by
  rw [State.frameReads, Bool.and_eq_true, Bool.and_eq_true, beq_iff_eq, beq_iff_eq, decide_eq_true_iff]
  rfl

theorem State.frameWrites_iff (s : State) (b : Bank) (n : Nat) :
    s.frameWrites b n = true ↔ (s.run.state = .busy ∧ b = s.run.outBank) ∧ n < 2 ^ s.run.cfg.log2n.toNat := by
  rw [State.frameWrites, Bool.and_eq_true, Bool.and_eq_true, beq_iff_eq, beq_iff_eq, decide_eq_true_iff]
  rfl

theorem State.writeSample_of_unread {s : State} {b : Bank} {n : Nat}
    (h : b ≠ s.run.inBank ∨ 2 ^ s.run.cfg.log2n.toNat ≤ n) (v : Word) :
    s.writeSample b n v = { s with mem := s.mem.writeWord (sramAddr b n) v } := by
  rcases s.writeSample_cases b n v with ⟨_, hwrite⟩ | ⟨hreads, _⟩
  · exact hwrite
  · obtain ⟨⟨_, hbank⟩, hlt⟩ := (s.frameReads_iff b n).mp hreads
    exact absurd (h.resolve_left (not_not_intro hbank)) (Nat.not_le.mpr hlt)

theorem State.writeResult_of_unwritten {s : State} {b : Bank} {n : Nat}
    (h : b ≠ s.run.outBank ∨ 2 ^ s.run.cfg.log2n.toNat ≤ n) (v : Word) :
    s.writeResult b n v = { s with mem := s.mem.writeWord (rramAddr b n) v } := by
  rcases s.writeResult_cases b n v with ⟨_, hwrite⟩ | ⟨hwrites, _⟩
  · exact hwrite
  · obtain ⟨⟨_, hbank⟩, hlt⟩ := (s.frameWrites_iff b n).mp hwrites
    exact absurd (h.resolve_left (not_not_intro hbank)) (Nat.not_le.mpr hlt)

/-! ### A store outside the frame commutes with the completion -/

/-- After one run of stores, a byte on which two memories agreed still reads alike in both. -/
theorem Memory.readByte_writeWords_congr (ws : List Word) : ∀ {m m' : Memory} (a : Nat) {b : Nat},
    m.readByte b = m'.readByte b → (m.writeWords a ws).readByte b = (m'.writeWords a ws).readByte b := by
  induction ws with
  | nil => intro m m' a b h; exact h
  | cons w ws ih =>
    intro m m' a b h
    refine ih (a + 4) ?_
    rw [Memory.readByte_writeWord, Memory.readByte_writeWord, h]

/-- The completion of a running frame goes on exactly when its samples can be fetched, and commits what hazards leave of the
frame computed from them. -/
theorem State.engineTurn_busy_iff {s : State} (hbusy : s.run.state = .busy) (t : State) :
    s.engineTurn = .next t ↔ ∃ ws, fetchWords s.mem s.run.inBank s.frameSize = some ws ∧
      t = s.commitFrame (settle s.frameHazard s.draws (processFrame s.run.cfg s.run.thresh ws)) := by
  have hturn : s.engineTurn = s.complete := by simp only [State.engineTurn, hbusy]
  rw [hturn]
  rcases State.complete_cases s with ⟨hfault, hnone⟩ | ⟨ws, hsome, hnext⟩
  · simp [hfault, hnone]
  · simp [hsome, hnext, eq_comm]

/-- A store outside the inputs of a frame leaves its fetch alone. -/
theorem fetchWords_writeWord_outside (m : Memory) (b : Bank) {a N : Nat} (v : Word)
    (h : a + 4 ≤ sramAddr b 0 ∨ sramAddr b N ≤ a) : fetchWords (m.writeWord a v) b N = fetchWords m b N :=
  fetchWords_congr fun k hk => Memory.readWord_writeWord_disjoint m v (by
    rw [sramAddr_eq b N] at h
    rw [sramAddr_eq b k]
    omega)

/-- `x` is `t` but for the word at `a`, which holds `v`. -/
def DiffersInWord (a : Nat) (v : Word) (t x : State) : Prop :=
  x = { t with mem := x.mem } ∧ SameBytesOutside a 4 t x ∧ x.mem.readWord a = some v

/-- The completion after a store outside the frame's inputs and outputs gives what it gives without the store, and the stored
word. -/
theorem State.engineTurn_after_store {s t : State} (hbusy : s.run.state = .busy) {a : Nat} (v : Word)
    (hin : a + 4 ≤ sramAddr s.run.inBank 0 ∨ sramAddr s.run.inBank (2 ^ s.run.cfg.log2n.toNat) ≤ a)
    (hout : a + 4 ≤ rramAddr s.run.outBank 0 ∨ rramAddr s.run.outBank (2 ^ s.run.cfg.log2n.toNat) ≤ a)
    (hturn : s.engineTurn = .next t) :
    ∃ x, State.engineTurn { s with mem := s.mem.writeWord a v } = .next x ∧ DiffersInWord a v t x := by
  obtain ⟨ws, hfetch, rfl⟩ := (State.engineTurn_busy_iff hbusy t).mp hturn
  have hfetch' := (fetchWords_writeWord_outside s.mem s.run.inBank v hin).trans hfetch
  have hturn' := (State.engineTurn_busy_iff (s := { s with mem := s.mem.writeWord a v }) hbusy _).mpr ⟨ws, hfetch', rfl⟩
  refine ⟨_, hturn', rfl, fun b hb => ?_, ?_⟩
  · exact Memory.readByte_writeWords_congr _ _ (Memory.readByte_writeWord_outside s.mem v hb)
  · exact (State.engineTurn_readWord_outside hturn' hout).trans (Memory.readWord_writeWord_self s.mem a v)

/-! ### The offset of a sample word -/

theorem wordOffset_ofNat {o : Nat} (hlt : o < 0x10000) (haligned : o % 4 = 0) : wordOffset (BitVec.ofNat 16 o) = o := by
  obtain ⟨hword, hle, hgt⟩ := wordOffset_bounds (BitVec.ofNat 16 o)
  rw [BitVec.toNat_ofNat] at hle hgt
  omega

/-- The address map undoes `sramAddr`. -/
theorem target_sramAddr (b : Bank) {n : Nat} (hn : n < 1024) : target (BitVec.ofNat 16 (sramAddr b n)) = .sram b n := by
  obtain ⟨hlo, hhi⟩ := sramAddr_bounds b hn
  have hoffset : wordOffset (BitVec.ofNat 16 (sramAddr b n)) = sramAddr b n :=
    wordOffset_ofNat (by omega) (by unfold sramAddr; omega)
  have hbank : (sramAddr b n - 0x1000) / 0x1000 = b.toNat := by unfold sramAddr; omega
  have hindex : sramAddr b n / 4 % 1024 = n := by unfold sramAddr; omega
  simp only [target, hoffset, hbank, hindex, BitVec.ofNat_toNat, BitVec.setWidth_eq]
  rw [if_neg (by omega), if_pos (by omega)]

/-- A written sample word reads as stored, while a frame runs as well. -/
theorem State.busRead_sample {s : State} {b : Bank} {n : Nat} (hn : n < 1024) {w : Word}
    (hw : s.mem.readWord (sramAddr b n) = some w) : s.busRead (BitVec.ofNat 16 (sramAddr b n)) = some (w, 0) := by
  simp only [State.busRead, State.busReply, target_sramAddr b hn, hw, replyOf]

/-- Settles O34: both writes are stores outside the frame, the legal configuration keeping the frame inside its banks. -/
theorem doubleBufferingIsSafe : Obligations.DoubleBufferingIsSafe := by
  intro s b n v hinv hbusy hn
  have hsize := hinv.runLegal.two_pow_log2n_le
  refine ⟨fun hunread => ?sample, fun hunwritten => ?result, fun _ => State.busRead_sample hn⟩
  case sample =>
    rw [State.writeSample_of_unread hunread]
    refine ⟨rfl, rfl, Memory.readWord_writeWord_self _ _ _, fun t => State.engineTurn_after_store hbusy v ?_ ?_⟩
    · exact sramAddr_outside_frame hunread hn hsize
    · exact .inl ((sramAddr_bounds b hn).2.trans (rramAddr_bounds s.run.outBank (n := 0) (by decide)).1)
  case result =>
    rw [State.writeResult_of_unwritten hunwritten]
    refine ⟨rfl, rfl, Memory.readWord_writeWord_self _ _ _, fun t => State.engineTurn_after_store hbusy v ?_ ?_⟩
    · exact .inr (sramAddr_le_rramAddr s.run.inBank b hsize)
    · exact rramAddr_outside_frame hunwritten hn hsize

end Sys2Proof.Machine
end

section
/-! Decoder against encoder (30_encoding.md R103, R104), and the mnemonics of a host script (R108). -/
namespace Sys2Proof

/-- A bank is one bit, so no command is ill-formed. -/
@[simp] theorem Instr.wellFormed_eq_true (i : Instr) : i.wellFormed = true := by
  cases i with
  | process inBank outBank =>
    have hin := inBank.isLt
    have hout := outBank.isLt
    simp only [Instr.wellFormed, Bool.and_eq_true, decide_eq_true_iff]
    omega
  | _ => rfl

theorem decode_eq_command_iff (w : Word) (i : Instr) : decode w = .command i ↔ encode i = w :=
  ⟨encode_of_decode, fun h => h ▸ decode_encode i⟩

/-- Settles O1: encoding undoes decoding on every legal word, and every command is well formed. -/
theorem decoderAndEncoderAgree : Obligations.DecoderAndEncoderAgree := fun w i =>
  (decode_eq_command_iff w i).trans ⟨fun h => ⟨i.wellFormed_eq_true, h⟩, And.right⟩

/-- Settles O4: three of the words are encoded commands; the other two have a bit set above the opcode. -/
theorem writtenOutWordsDecode : Obligations.WrittenOutWordsDecode :=
  ⟨decode_encode .configure, decode_encode (.process 0 1), decode_encode .clipDec,
    decode_of_illegal_opcode (by decide), decode_of_reservedC0 (by decide) (by decide) (by decide)⟩

namespace Machine

/-- The word that the script's `PROCESS` builds from two numbers is that of the command with these banks. -/
theorem expandStmt_process {b c : Nat} (hb : b ≤ 1) (hc : c ≤ 1) :
    expandStmt (.process b c) = some [.write 0x14 (encode (.process (BitVec.ofNat 1 b) (BitVec.ofNat 1 c)))] := by
  interval_cases b <;> interval_cases c <;> rfl

theorem expandStmt_of_not_wellFormed {st : Stmt} (h : st.wellFormed = false) : expandStmt st = none := by
  simp [expandStmt, h]

/-- Settles O5: the mnemonics without operands by evaluation, `PROCESS` for each pair of banks. -/
theorem mnemonicsAssembleToOneWrite : Obligations.MnemonicsAssembleToOneWrite := by
  refine ⟨rfl, rfl, fun _ _ => expandStmt_process, fun b c hbad => expandStmt_of_not_wellFormed ?_, rfl, rfl, rfl, rfl⟩
  rw [Stmt.wellFormed, ← Bool.decide_and]
  exact decide_eq_false hbad

end Machine
end Sys2Proof
end

section
/-! What a command can do, command by command (40_commands.md R121 to R130), and what a step can do, agent by agent
(00_scope.md R11, 20_memory.md R90). Every rule about steps is derived from these two inversions. -/
namespace Sys2Proof.Machine

/-! ### The actions of the commands -/

theorem exec_nop (s : State) : exec .nop s = .next s := rfl

theorem exec_abort (s : State) : exec .abort s = .next s.discardFrame := rfl

theorem exec_clipClr (s : State) : exec .clipClr s = .next { s with clipCount := 0 } := rfl

theorem exec_clipDec (s : State) :
    exec .clipDec s = .next { s with clipCount := if s.clipCount = 0 then 0 else s.clipCount - 1 } := rfl

theorem exec_softReset (s : State) : exec .softReset s = .next s.discardFrame.resetRegisters := rfl

theorem exec_configure_of_window {s : State} (hidle : s.run.state = .idle) {win : WinSel}
    (hwin : winSelOf (ctrlWinsel s.ctrl) = some win) :
    exec .configure s = .next { s with activeCfg := configured s.ctrl s.dispWidth win } := by
  simp only [exec_configure, execConfigure, hidle, hwin]

/-- The state after an accepted `PROCESS`: the run record is taken and no value of the new frame is open
(40_commands.md R124; log 6). -/
def State.start (s : State) (inBank outBank : Bank) : State :=
  { s with
    run := { state := .busy, inBank := inBank, outBank := outBank, thresh := s.clipThresh, cfg := s.activeCfg }
    frameHazard := FrameHazard.clear }

theorem exec_process_of_idle {s : State} (hidle : s.run.state = .idle) (inBank outBank : Bank) :
    exec (.process inBank outBank) s = .next (s.start inBank outBank) := by
  simp only [exec_process, execProcess, hidle, State.start]

/-- `CommandEffect s i t`: the command `i`, run in `s`, can lead to `t`. -/
inductive CommandEffect (s : State) : Instr → State → Prop
  | nop : CommandEffect s .nop s
  | turnedAway {i : Instr} (hi : i.NeedsIdle) (hbusy : s.run.state = .busy) :
      CommandEffect s i (s.reject .busy (encode i))
  | badWindow : CommandEffect s .configure (s.reject .badWindow (encode .configure))
  | configure (win : WinSel) (hidle : s.run.state = .idle) :
      CommandEffect s .configure { s with activeCfg := configured s.ctrl s.dispWidth win }
  | start (inBank outBank : Bank) (hidle : s.run.state = .idle) :
      CommandEffect s (.process inBank outBank) (s.start inBank outBank)
  | abort : CommandEffect s .abort s.discardFrame
  | clip {i : Instr} (hi : i = .clipClr ∨ i = .clipDec) (count : Half) : CommandEffect s i { s with clipCount := count }
  | softReset : CommandEffect s .softReset s.discardFrame.resetRegisters

/-- Every command completes in every state, with one of the effects of `CommandEffect`. -/
theorem exec_effect (i : Instr) (s : State) : ∃ t, exec i s = .next t ∧ CommandEffect s i t := by
  cases i with
  | nop => exact ⟨_, exec_nop s, .nop⟩
  | configure =>
    rcases execConfigure_cases s with ⟨hbusy, h⟩ | ⟨_, _, h⟩ | ⟨win, hidle, _, h⟩
    · exact ⟨_, h, .turnedAway (.inl rfl) hbusy⟩
    · exact ⟨_, h, .badWindow⟩
    · exact ⟨_, h, .configure win hidle⟩
  | process inBank outBank =>
    cases hrun : s.run.state with
    | busy =>
      have hneeds : (Instr.process inBank outBank).NeedsIdle := .inr ⟨inBank, outBank, rfl⟩
      exact ⟨_, exec_of_needsIdle_of_busy hneeds hrun, .turnedAway hneeds hrun⟩
    | idle => exact ⟨_, exec_process_of_idle hrun inBank outBank, .start inBank outBank hrun⟩
  | abort => exact ⟨_, exec_abort s, .abort⟩
  | clipClr => exact ⟨_, exec_clipClr s, .clip (.inl rfl) _⟩
  | clipDec => exact ⟨_, exec_clipDec s, .clip (.inr rfl) _⟩
  | softReset => exact ⟨_, exec_softReset s, .softReset⟩

theorem exec_next {i : Instr} {s t : State} (h : exec i s = .next t) : CommandEffect s i t := by
  obtain ⟨u, hu, heffect⟩ := exec_effect i s
  rw [h] at hu
  cases hu
  exact heffect

/-! ### The steps of the agents -/

/-- The turn is used up, and `rest` is what the Host still has to issue. -/
def State.used (s : State) (rest : List HostOp) : State := { s with turns := s.turns.tail, host := rest }

/-- The step is the host write of `v` at offset `a`. -/
def HostWrites (s : State) (a : Offset) (v : Word) (rest : List HostOp) : Prop :=
  s.dueTurn = .host ∧ s.host = .write a v :: rest

/-- At most the staged registers, the flags, the interrupt mask and what lies outside the block have moved. -/
def OnlyStages (s t : State) : Prop :=
  t = { s with
    ctrl := t.ctrl, dispWidth := t.dispWidth, clipThresh := t.clipThresh, irqStatus := t.irqStatus
    irqEnable := t.irqEnable, draws := t.draws, host := t.host, turns := t.turns, rdata := t.rdata }

section OnlyStages
variable {s t : State}

theorem OnlyStages.activeCfg_eq (h : OnlyStages s t) : t.activeCfg = s.activeCfg := by rw [h]

theorem OnlyStages.maxI_eq (h : OnlyStages s t) : t.maxI = s.maxI := by rw [h]

theorem OnlyStages.maxQ_eq (h : OnlyStages s t) : t.maxQ = s.maxQ := by rw [h]

theorem OnlyStages.clipCount_eq (h : OnlyStages s t) : t.clipCount = s.clipCount := by rw [h]

theorem OnlyStages.frameCount_eq (h : OnlyStages s t) : t.frameCount = s.frameCount := by rw [h]

theorem OnlyStages.errCode_eq (h : OnlyStages s t) : t.errCode = s.errCode := by rw [h]

theorem OnlyStages.errCmd_eq (h : OnlyStages s t) : t.errCmd = s.errCmd := by rw [h]

theorem OnlyStages.run_eq (h : OnlyStages s t) : t.run = s.run := by rw [h]

theorem OnlyStages.mem_eq (h : OnlyStages s t) : t.mem = s.mem := by rw [h]

theorem OnlyStages.hazards_eq (h : OnlyStages s t) : t.hazards = s.hazards := by rw [h]

end OnlyStages

/-- `StepEffect s t`: a step from `s` can lead to `t`. -/
inductive StepEffect (s : State) : State → Prop
  | reset (hdue : s.dueTurn = .reset) : StepEffect s (State.resetInput { s with turns := s.turns.tail })
  | completion {ws : List Word} (hcompletes : TakesCompletion s)
      (hfetch : fetchWords s.mem s.run.inBank s.frameSize = some ws) :
      StepEffect s (State.commitFrame { s with turns := s.turns.tail }
        (settle s.frameHazard s.draws (processFrame s.run.cfg s.run.thresh ws)))
  | stages {t : State} (h : OnlyStages s t) : StepEffect s t
  | illegal {a : Offset} {w : Word} {rest : List HostOp} {e : CmdError} (hwrites : HostWrites s a w rest)
      (hcmd : target a = .reg .cmd) (hdecode : decode w = .illegal e) : StepEffect s ((s.used rest).reject e w)
  | command {a : Offset} {w : Word} {rest : List HostOp} {i : Instr} {t : State} (hwrites : HostWrites s a w rest)
      (hcmd : target a = .reg .cmd) (hdecode : decode w = .command i) (heffect : CommandEffect (s.used rest) i t) :
      StepEffect s t
  | sample {a : Offset} {v : Word} {rest : List HostOp} {b : Bank} {n : Nat} (hwrites : HostWrites s a v rest)
      (htarget : target a = .sram b n) : StepEffect s ((s.used rest).writeSample b n v)
  | result {a : Offset} {v : Word} {rest : List HostOp} {b : Bank} {n : Nat} (hwrites : HostWrites s a v rest)
      (htarget : target a = .rram b n) : StepEffect s ((s.used rest).writeResult b n v)

/-- A write of a register other than `CMD` stages a value, acknowledges flags, or does nothing. -/
theorem State.writeReg_next {s t : State} {r : Reg} {v : Word} (h : s.writeReg r v = .next t) :
    (r = .cmd ∧ s.issue v = .next t) ∨ OnlyStages s t := by
  cases r with
  | cmd => exact .inl ⟨rfl, h⟩
  | _ => cases h; exact .inr rfl

/-- The effects of a host write. -/
theorem stepEffect_of_write {s t : State} {a : Offset} {v : Word} {rest : List HostOp} (hwrites : HostWrites s a v rest)
    (h : (s.used rest).busWrite a v = .next t) : StepEffect s t := by
  rcases (s.used rest).busWrite_cases a v with
    ⟨r, htarget, hw⟩ | ⟨b, n, htarget, _, hw⟩ | ⟨b, n, htarget, _, hw⟩ | ⟨_, hw⟩ <;> rw [hw] at h
  · rcases State.writeReg_next h with ⟨rfl, hissue⟩ | hstages
    · rcases (s.used rest).issue_cases v with ⟨e, hdecode, he⟩ | ⟨i, hdecode, hi⟩
      · rw [he] at hissue
        cases hissue
        exact .illegal hwrites htarget hdecode
      · exact .command hwrites htarget hdecode (exec_next (hi ▸ hissue))
    · exact .stages hstages
  · cases h
    exact .sample hwrites htarget
  · cases h
    exact .result hwrites htarget
  · cases h
    exact .stages rfl

/-- Every step that goes on has one of the effects of `StepEffect`. -/
theorem step_next {s t : State} (h : step s = .next t) : StepEffect s t := by
  rcases step_cases s with ⟨hdue, hstep⟩ | ⟨hdue, hstep⟩ | ⟨hdue, hstep⟩ <;> rw [hstep] at h
  · rcases State.hostTurn_next h with ⟨_, rfl⟩ | ⟨a, v, rest, hhost, hw⟩ | ⟨a, rest, w, d, _, _, rfl⟩ |
      ⟨a, mask, val, rest, w, d, _, _, rfl⟩
    · exact .stages rfl
    · exact stepEffect_of_write ⟨hdue, hhost⟩ hw
    · exact .stages rfl
    · exact .stages rfl
  · rcases State.engineTurn_next h with ⟨_, rfl⟩ | ⟨ws, hbusy, hfetch, rfl⟩
    · exact .stages rfl
    · exact .completion ⟨hdue, hbusy⟩ hfetch
  · cases h
    exact .reset hdue

end Sys2Proof.Machine
end

section
/-! The invariant `Inv`: it holds at reset, and every operation of the block keeps it. -/
namespace Sys2Proof.Machine

/-! ### The canonical form of RAM -/

/-- The part of `Inv` that is about RAM: sorted, inside the two RAMs, written by whole words. -/
structure Memory.Canonical (m : Memory) : Prop where
  sorted : m.wf = true
  inRam : ∀ c ∈ m, 0x1000 ≤ c.1 ∧ c.1 < 0x5000
  wholeWords : m.WholeWords

theorem Memory.canonical_nil : Memory.Canonical [] := ⟨rfl, List.forall_mem_nil _, Memory.wholeWords_nil⟩

theorem Memory.Canonical.writeWords {m : Memory} (h : m.Canonical) {a : Nat} {ws : List Word} (haligned : a % 4 = 0)
    (hlo : 0x1000 ≤ a) (hhi : a + 4 * ws.length ≤ 0x5000) : (m.writeWords a ws).Canonical where
  sorted := Memory.wf_writeWords ws m a h.sorted
  inRam c hc := by
    rcases Memory.mem_writeWords ws m a hc with hnew | hold
    · omega
    · exact h.inRam c hold
  wholeWords := Memory.wholeWords_writeWords ws m a haligned h.wholeWords

theorem Memory.Canonical.writeSample {m : Memory} (h : m.Canonical) (b : Bank) {n : Nat} (hn : n < 1024) (v : Word) :
    (m.writeWord (sramAddr b n) v).Canonical := by
  obtain ⟨hlo, hhi⟩ := sramAddr_bounds b hn
  exact h.writeWords (ws := [v]) (by unfold sramAddr; omega) hlo (hhi.trans (by decide))

theorem Memory.Canonical.writeResults {m : Memory} (h : m.Canonical) (b : Bank) {n : Nat} {ws : List Word}
    (hn : n + ws.length ≤ 1024) : (m.writeWords (rramAddr b n) ws).Canonical := by
  have hb := b.isLt
  exact h.writeWords (by unfold rramAddr; omega) (by unfold rramAddr; omega) (by unfold rramAddr; omega)

theorem Inv.canonical {s : State} (h : Inv s) : s.mem.Canonical := ⟨h.memSorted, h.memInRam, h.memWholeWords⟩

theorem Inv.frameSize_le {s : State} (h : Inv s) : s.frameSize ≤ 1024 := h.runLegal.two_pow_log2n_le

/-! ### Legal configurations -/

theorem ActiveCfg.legal_reset : ActiveCfg.reset.legal := by unfold ActiveCfg.legal; decide

theorem configured_log2n_toNat (ctrl : BitVec 8) (width : Half) (win : WinSel) :
    (configured ctrl width win).log2n.toNat = (clampN (ctrlLog2nReq ctrl).toNat width.toNat).1 := by
  have hmax := (clampN_bounds (ctrlLog2nReq ctrl).toNat width.toNat).2
  exact (BitVec.toNat_ofNat _ _).trans (Nat.mod_eq_of_lt (by omega))

theorem configured_legal (ctrl : BitVec 8) (width : Half) (win : WinSel) : (configured ctrl width win).legal := by
  rw [ActiveCfg.legal, configured_log2n_toNat]
  exact clampN_bounds _ _

/-! ### The range of the maxima -/

/-- The maxima a completion leaves keep the bound of 10_state.md R32, open values included. -/
theorem settle_processFrame_max_le (hz : FrameHazard) (d : Nat) (cfg : ActiveCfg) (thresh : Half) (ws : List Word) :
    (settle hz d (processFrame cfg thresh ws)).maxI.toNat ≤ 32768 ∧
    (settle hz d (processFrame cfg thresh ws)).maxQ.toNat ≤ 32768 := by
  have hdraw (x : Fin 32769) : (BitVec.ofNat 16 x.val).toNat ≤ 32768 :=
    (BitVec.toNat_ofNat _ _).trans_le ((Nat.mod_le _ _).trans (Nat.le_of_lt_succ x.isLt))
  obtain ⟨hi, hq⟩ := processFrame_max_toNat cfg thresh ws
  obtain ⟨hile, hqle⟩ := maxAbs_fetchChannels_le ws
  unfold settle
  cases hz.input with
  | true => exact ⟨hdraw _, hdraw _⟩
  | false => exact ⟨hi.trans_le hile, hq.trans_le hqle⟩

/-! ### Each operation keeps the invariant -/

theorem inv_reset : Inv State.reset where
  memSorted := Memory.canonical_nil.sorted
  memInRam := Memory.canonical_nil.inRam
  memWholeWords := Memory.canonical_nil.wholeWords
  activeLegal := ActiveCfg.legal_reset
  runLegal := ActiveCfg.legal_reset
  runIsActive _ := rfl
  maxIRange := Nat.zero_le _
  maxQRange := Nat.zero_le _
  errCodeRange := Nat.zero_le _
  idleFrameClear _ := rfl
  inputOnRecord := nofun
  outputOnRecord h := absurd rfl h
  outputInFrame := List.forall_mem_nil _

theorem errorCode_toNat_le (e : CmdError) : (errorCode e).toNat ≤ 4 := by cases e <;> decide

section Operations
variable {s t : State}

theorem Inv.onlyStages (h : Inv s) (ht : OnlyStages s t) : Inv t := by
  rw [ht]
  exact { h with }

theorem Inv.used (h : Inv s) (rest : List HostOp) : Inv (s.used rest) := { h with }

theorem Inv.reject (h : Inv s) (e : CmdError) (w : Word) : Inv (s.reject e w) :=
  { h with errCodeRange := errorCode_toNat_le e }

theorem Inv.configure (h : Inv s) (hidle : s.run.state = .idle) (win : WinSel) :
    Inv { s with activeCfg := configured s.ctrl s.dispWidth win } :=
  { h with
    activeLegal := configured_legal _ _ _
    runIsActive := fun hbusy => by cases hidle.symm.trans hbusy }

theorem Inv.start (h : Inv s) (inBank outBank : Bank) : Inv (s.start inBank outBank) :=
  { h with
    runLegal := h.activeLegal
    runIsActive := fun _ => rfl
    idleFrameClear := nofun
    inputOnRecord := nofun
    outputOnRecord := fun hne => absurd rfl hne
    outputInFrame := List.forall_mem_nil _ }

/-- Back to IDLE with no open value: the end of a frame, whatever it has left in RAM and in the statistics. -/
theorem Inv.endFrame (h : Inv s) (ht : t = { s with
      mem := t.mem, maxI := t.maxI, maxQ := t.maxQ, clipCount := t.clipCount, frameCount := t.frameCount
      irqStatus := t.irqStatus, run := { s.run with state := .idle }, draws := t.draws
      frameHazard := FrameHazard.clear })
    (hmem : t.mem.Canonical) (hmaxI : t.maxI.toNat ≤ 32768) (hmaxQ : t.maxQ.toNat ≤ 32768) : Inv t := by
  rw [ht]
  exact
    { h with
      memSorted := hmem.sorted
      memInRam := hmem.inRam
      memWholeWords := hmem.wholeWords
      runIsActive := nofun
      maxIRange := hmaxI
      maxQRange := hmaxQ
      idleFrameClear := fun _ => rfl
      inputOnRecord := nofun
      outputOnRecord := fun hne => absurd rfl hne
      outputInFrame := List.forall_mem_nil _ }

theorem Inv.commitFrame (h : Inv s) {r : FrameResult} (hlen : r.words.length = s.frameSize)
    (hmaxI : r.maxI.toNat ≤ 32768) (hmaxQ : r.maxQ.toNat ≤ 32768) : Inv (s.commitFrame r) :=
  h.endFrame rfl (h.canonical.writeResults _ (by rw [hlen, Nat.zero_add]; exact h.frameSize_le)) hmaxI hmaxQ

theorem Inv.discardFrame (h : Inv s) : Inv s.discardFrame := by
  cases hrun : s.run.state with
  | idle => rwa [State.discardFrame_of_idle hrun]
  | busy =>
    rw [State.discardFrame_of_busy hrun]
    refine h.endFrame rfl (h.canonical.writeResults _ ?_) h.maxIRange h.maxQRange
    rw [drawnWords_length, Nat.zero_add]
    exact h.frameSize_le

/-- Any canonical RAM goes with the registers at reset. -/
theorem Memory.Canonical.inv_resetRegisters (h : s.mem.Canonical) : Inv s.resetRegisters :=
  { inv_reset with
    memSorted := h.sorted
    memInRam := h.inRam
    memWholeWords := h.wholeWords
    inputOnRecord := nofun
    outputOnRecord := fun hne => absurd rfl hne }

theorem inv_resetInput (s : State) : Inv s.resetInput :=
  Memory.Canonical.inv_resetRegisters (s := { s with mem := State.reset.mem }) Memory.canonical_nil

theorem Inv.writeSample (h : Inv s) (b : Bank) {n : Nat} (hn : n < 1024) (v : Word) : Inv (s.writeSample b n v) := by
  have hmem := h.canonical.writeSample b hn v
  rcases s.writeSample_cases b n v with ⟨_, hw⟩ | ⟨hreads, hw⟩ <;> rw [hw]
  · exact { h with memSorted := hmem.sorted, memInRam := hmem.inRam, memWholeWords := hmem.wholeWords }
  · obtain ⟨⟨hbusy, _⟩, _⟩ := (s.frameReads_iff b n).mp hreads
    exact
      { h with
        memSorted := hmem.sorted
        memInRam := hmem.inRam
        memWholeWords := hmem.wholeWords
        idleFrameClear := fun hidle => by cases hbusy.symm.trans hidle
        inputOnRecord := fun _ => rfl }

theorem Inv.writeResult (h : Inv s) (b : Bank) {n : Nat} (hn : n < 1024) (v : Word) : Inv (s.writeResult b n v) := by
  have hmem := h.canonical.writeResults b (ws := [v]) hn
  rcases s.writeResult_cases b n v with ⟨_, hw⟩ | ⟨hwrites, hw⟩ <;> rw [hw]
  · exact { h with memSorted := hmem.sorted, memInRam := hmem.inRam, memWholeWords := hmem.wholeWords }
  · obtain ⟨⟨hbusy, _⟩, hlt⟩ := (s.frameWrites_iff b n).mp hwrites
    exact
      { h with
        memSorted := hmem.sorted
        memInRam := hmem.inRam
        memWholeWords := hmem.wholeWords
        idleFrameClear := fun hidle => by cases hbusy.symm.trans hidle
        outputOnRecord := fun _ => rfl
        outputInFrame := fun k hk => (List.mem_insert_iff.mp hk).elim (fun heq => heq ▸ hlt) (h.outputInFrame k) }

theorem Inv.command {i : Instr} (h : Inv s) (heffect : CommandEffect s i t) : Inv t := by
  cases heffect with
  | nop => exact h
  | turnedAway hi hbusy => exact h.reject _ _
  | badWindow => exact h.reject _ _
  | configure win hidle => exact h.configure hidle win
  | start inBank outBank hidle => exact h.start inBank outBank
  | abort => exact h.discardFrame
  | clip hi count => exact { h with }
  | softReset => exact h.discardFrame.canonical.inv_resetRegisters

end Operations

/-- Settles O54. -/
theorem resetStateHasTheInvariant : Obligations.ResetStateHasTheInvariant := inv_reset

/-- Settles O55: each effect of a step is an operation that keeps the invariant. -/
theorem everyStepKeepsTheInvariant : Obligations.EveryStepKeepsTheInvariant := by
  intro s t h hstep
  cases step_next hstep with
  | reset hdue => exact inv_resetInput _
  | completion hcompletes hfetch =>
    obtain ⟨hmaxI, hmaxQ⟩ := settle_processFrame_max_le s.frameHazard s.draws s.run.cfg s.run.thresh _
    exact (h.used s.host).commitFrame (settle_processFrame_words_length _ _ _ _ _) hmaxI hmaxQ
  | stages hstages => exact h.onlyStages hstages
  | illegal hwrites hcmd hdecode => exact (h.used _).reject _ _
  | command hwrites hcmd hdecode heffect => exact (h.used _).command heffect
  | sample hwrites htarget => exact (h.used _).writeSample _ (target_sram_lt htarget) _
  | result hwrites htarget => exact (h.used _).writeResult _ (target_rram_lt htarget) _

end Sys2Proof.Machine
end

section
/-! Rules over every step: what keeps the error record true, what configures, starts and ends a frame, what changes the
statistics, what writes sample RAM, and that a recorded hazard stays. Each is read off the effects of a step. -/
namespace Sys2Proof

/-- The decoder's own codes are 1 and 2. -/
theorem decode_illegal_cases {w : Word} {e : CmdError} (h : decode w = .illegal e) :
    e = .illegalOpcode ∨ e = .reservedBits := by
  by_cases hop : 7 ≤ w.toNat % 256
  · rw [decode_of_illegal_opcode hop] at h
    cases h
    exact .inl rfl
  · by_cases hr : ReservedBitSet w
    · rw [decode_of_reservedBitSet (Nat.lt_of_not_le hop) hr] at h
      cases h
      exact .inr rfl
    · have hcommand : ∃ i, encode i = w := by
        unfold ReservedBitSet at hr
        by_cases htwo : w.toNat % 256 = 2
        · obtain ⟨_, _, hw⟩ := encode_process_of_fields htwo (by omega)
          exact ⟨_, hw⟩
        · exact encode_C0_of_fields (by omega) htwo (by omega)
      obtain ⟨i, rfl⟩ := hcommand
      rw [decode_encode] at h
      cases h

namespace Machine

/-! ### The error record (60_exceptions.md R221, R226) -/

theorem errorRecordTrue_congr {s t : State} (h : ErrorRecordTrue s) (hcode : t.errCode = s.errCode)
    (hcmd : t.errCmd = s.errCmd) : ErrorRecordTrue t := by
  unfold ErrorRecordTrue
  rwa [hcode, hcmd]

theorem errorRecordTrue_reset {t : State} (hcode : t.errCode = 0) (hcmd : t.errCmd = 0) : ErrorRecordTrue t :=
  .inl ⟨hcode, hcmd⟩

theorem errorRecordTrue_illegal (s : State) {w : Word} {e : CmdError} (h : decode w = .illegal e) :
    ErrorRecordTrue (s.reject e w) := by
  rcases decode_illegal_cases h with rfl | rfl
  · exact .inr (.inl ⟨rfl, h⟩)
  · exact .inr (.inr (.inl ⟨rfl, h⟩))

theorem errorRecordTrue_turnedAway (s : State) {i : Instr} (hi : i.NeedsIdle) :
    ErrorRecordTrue (s.reject .busy (encode i)) := by
  refine .inr (.inr (.inr (.inl ⟨rfl, ?_⟩)))
  rcases hi with rfl | ⟨inBank, outBank, rfl⟩
  · exact .inl (decode_encode _)
  · exact .inr ⟨inBank, outBank, decode_encode _⟩

theorem errorRecordTrue_badWindow (s : State) : ErrorRecordTrue (s.reject .badWindow (encode .configure)) :=
  .inr (.inr (.inr (.inr ⟨rfl, decode_encode _⟩)))

theorem CommandEffect.errorRecordTrue {s t : State} {i : Instr} (heffect : CommandEffect s i t)
    (h : ErrorRecordTrue s) : ErrorRecordTrue t := by
  cases heffect with
  | turnedAway hi hbusy => exact errorRecordTrue_turnedAway s hi
  | badWindow => exact errorRecordTrue_badWindow s
  | softReset => exact errorRecordTrue_reset rfl rfl
  | abort => exact errorRecordTrue_congr h s.discardFrame_errCode s.discardFrame_errCmd
  | _ => exact errorRecordTrue_congr h rfl rfl

/-- Settles O56: a rejection writes a true record, a reset clears it, and every other effect leaves it. -/
theorem errorRecordStaysTrue : Obligations.ErrorRecordStaysTrue := by
  refine ⟨errorRecordTrue_reset rfl rfl, fun s t h hstep => ?_⟩
  cases step_next hstep with
  | reset hdue => exact errorRecordTrue_reset rfl rfl
  | completion hcompletes hfetch => exact errorRecordTrue_congr h rfl rfl
  | stages hstages => exact errorRecordTrue_congr h hstages.errCode_eq hstages.errCmd_eq
  | illegal hwrites hcmd hdecode => exact errorRecordTrue_illegal _ hdecode
  | command hwrites hcmd hdecode heffect => exact heffect.errorRecordTrue (errorRecordTrue_congr h rfl rfl)
  | sample hwrites htarget =>
    exact errorRecordTrue_congr h (State.writeSample_errCode _ _ _ _) (State.writeSample_errCmd _ _ _ _)
  | result hwrites htarget =>
    exact errorRecordTrue_congr h (State.writeResult_errCode _ _ _ _) (State.writeResult_errCmd _ _ _ _)

/-! ### The configuration and the run state (10_state.md R28, R29, R39) -/

theorem State.discardFrame_run_state (s : State) : s.discardFrame.run.state = .idle := by
  cases hrun : s.run.state with
  | idle => rwa [State.discardFrame_of_idle hrun]
  | busy => rw [State.discardFrame_of_busy hrun]

/-- The active configuration, the run record and the statistics are as before. -/
structure SameEngine (s t : State) : Prop where
  activeCfg : t.activeCfg = s.activeCfg
  run : t.run = s.run
  maxI : t.maxI = s.maxI
  maxQ : t.maxQ = s.maxQ
  clipCount : t.clipCount = s.clipCount
  frameCount : t.frameCount = s.frameCount

/-- The step issues the command `i`, and the command leads to `t`. -/
def Issues (s : State) (i : Instr) (t : State) : Prop :=
  ∃ a w rest, HostWrites s a w rest ∧ target a = .reg .cmd ∧ decode w = .command i ∧ CommandEffect (s.used rest) i t

theorem Issues.issuesOneOf {s t : State} {i : Instr} {is : List Instr} (h : Issues s i t) (hi : i ∈ is) :
    IssuesOneOf s is := by
  obtain ⟨a, w, rest, ⟨hdue, hhost⟩, hcmd, hdecode, _⟩ := h
  exact ⟨a, w, rest, i, hdue, hhost, hcmd, hdecode, hi⟩

/-- What a step does to the engine: only a reset, a completion or a command changes anything of it. -/
theorem step_engine_cases {s t : State} (h : step s = .next t) :
    (s.dueTurn = .reset ∧ t.run.state = .idle) ∨ (TakesCompletion s ∧ t.activeCfg = s.activeCfg) ∨
    (∃ i, Issues s i t) ∨ SameEngine s t := by
  cases step_next h with
  | reset hdue => exact .inl ⟨hdue, rfl⟩
  | completion hcompletes hfetch => exact .inr (.inl ⟨hcompletes, rfl⟩)
  | command hwrites hcmd hdecode heffect => exact .inr (.inr (.inl ⟨_, _, _, _, hwrites, hcmd, hdecode, heffect⟩))
  | stages h =>
    exact .inr (.inr (.inr ⟨h.activeCfg_eq, h.run_eq, h.maxI_eq, h.maxQ_eq, h.clipCount_eq, h.frameCount_eq⟩))
  | illegal hwrites hcmd hdecode => exact .inr (.inr (.inr ⟨rfl, rfl, rfl, rfl, rfl, rfl⟩))
  | sample hwrites htarget => exact .inr (.inr (.inr (by constructor <;> simp [State.used])))
  | result hwrites htarget => exact .inr (.inr (.inr (by constructor <;> simp [State.used])))

theorem Issues.activeCfg_changed {s t : State} {i : Instr} (h : Issues s i t) (hne : t.activeCfg ≠ s.activeCfg) :
    i ∈ [Instr.configure, .softReset] := by
  obtain ⟨a, w, rest, _, _, _, heffect⟩ := h
  cases heffect with
  | configure win hidle => exact List.mem_cons_self
  | softReset => exact List.mem_cons_of_mem _ List.mem_cons_self
  | abort => exact absurd (s.used rest).discardFrame_activeCfg hne
  | _ => exact absurd rfl hne

/-- Every pair of banks is one of the four. -/
theorem process_mem_processes (inBank outBank : Bank) :
    Instr.process inBank outBank ∈ [Instr.process 0 0, .process 0 1, .process 1 0, .process 1 1] := by
  revert inBank outBank
  decide

theorem Issues.started {s t : State} {i : Instr} (h : Issues s i t) (hidle : s.run.state = .idle)
    (hbusy : t.run.state = .busy) : i ∈ [Instr.process 0 0, .process 0 1, .process 1 0, .process 1 1] := by
  obtain ⟨a, w, rest, _, _, _, heffect⟩ := h
  cases heffect with
  | start inBank outBank _ => exact process_mem_processes inBank outBank
  | abort => cases (s.used rest).discardFrame_run_state.symm.trans hbusy
  | softReset => cases hbusy
  | _ => cases hidle.symm.trans hbusy

theorem Issues.ended {s t : State} {i : Instr} (h : Issues s i t) (hbusy : s.run.state = .busy)
    (hidle : t.run.state = .idle) : i ∈ [Instr.abort, .softReset] := by
  obtain ⟨a, w, rest, _, _, _, heffect⟩ := h
  cases heffect with
  | abort => exact List.mem_cons_self
  | softReset => exact List.mem_cons_of_mem _ List.mem_cons_self
  | start inBank outBank _ => cases hidle
  | _ => cases hbusy.symm.trans hidle

/-- Settles O57: a change of the configuration or of the run state is a reset, a completion, or one of the named
commands. -/
theorem onlyCommandsConfigureAndStart : Obligations.OnlyCommandsConfigureAndStart := by
  intro s t hstep
  rcases step_engine_cases hstep with ⟨hdue, hidle⟩ | ⟨hcompletes, hcfg⟩ | ⟨i, hissues⟩ | hsame
  · exact ⟨fun _ => .inl hdue, fun _ hbusy => (nomatch hidle.symm.trans hbusy), fun _ _ => .inr (.inl hdue)⟩
  · exact ⟨fun hne => absurd hcfg hne, fun hidle _ => (nomatch hidle.symm.trans hcompletes.2),
      fun _ _ => .inl hcompletes⟩
  · exact ⟨fun hne => .inr (hissues.issuesOneOf (hissues.activeCfg_changed hne)),
      fun hidle hbusy => hissues.issuesOneOf (hissues.started hidle hbusy),
      fun hbusy hidle => .inr (.inr (hissues.issuesOneOf (hissues.ended hbusy hidle)))⟩
  · have hstate : t.run.state = s.run.state := congrArg Run.state hsame.run
    exact ⟨fun hne => absurd hsame.activeCfg hne, fun hidle hbusy => (nomatch (hstate.trans hidle).symm.trans hbusy),
      fun hbusy hidle => (nomatch (hstate.trans hbusy).symm.trans hidle)⟩

/-! ### The statistics (10_state.md R32 to R35) -/

theorem Issues.frame_statistics_changed {s t : State} {i : Instr} (h : Issues s i t)
    (hne : t.maxI ≠ s.maxI ∨ t.maxQ ≠ s.maxQ ∨ t.frameCount ≠ s.frameCount) : i ∈ [Instr.softReset] := by
  obtain ⟨a, w, rest, _, _, _, heffect⟩ := h
  cases heffect with
  | softReset => exact List.mem_cons_self
  | abort => simp [State.used] at hne
  | _ => simp [State.used, State.start] at hne

theorem Issues.clipCount_changed {s t : State} {i : Instr} (h : Issues s i t) (hne : t.clipCount ≠ s.clipCount) :
    i ∈ [Instr.softReset, .clipClr, .clipDec] := by
  obtain ⟨a, w, rest, _, _, _, heffect⟩ := h
  cases heffect with
  | softReset => exact List.mem_cons_self
  | clip hi count => rcases hi with rfl | rfl <;> decide
  | abort => exact absurd (s.used rest).discardFrame_clipCount hne
  | _ => exact absurd rfl hne

theorem step_of_engine_due {s : State} (hdue : s.dueTurn = .engine) :
    step s = State.engineTurn { s with turns := s.turns.tail } := by
  rw [step, State.advance, hdue]
  rfl

theorem frameCount_of_takesCompletion {s t : State} (hcompletes : TakesCompletion s) (hstep : step s = .next t) :
    t.frameCount = s.frameCount + 1 := by
  obtain ⟨hdue, hbusy⟩ := hcompletes
  rw [step_of_engine_due hdue, State.engineTurn_busy_iff (s := { s with turns := s.turns.tail }) hbusy] at hstep
  obtain ⟨ws, _, rfl⟩ := hstep
  rfl

/-- Settles O58: a change of the statistics is a reset, a completion, or one of the named commands. -/
theorem statisticsChangeOnlyAtCompletion : Obligations.StatisticsChangeOnlyAtCompletion := by
  intro s t hstep
  refine ⟨fun hne => ?maxima, fun hne => ?clipCount, fun hcompletes => frameCount_of_takesCompletion hcompletes hstep⟩
  case maxima =>
    rcases step_engine_cases hstep with ⟨hdue, _⟩ | ⟨hcompletes, _⟩ | ⟨i, hissues⟩ | hsame
    · exact .inr (.inl hdue)
    · exact .inl hcompletes
    · exact .inr (.inr (hissues.issuesOneOf (hissues.frame_statistics_changed hne)))
    · simp [hsame.maxI, hsame.maxQ, hsame.frameCount] at hne
  case clipCount =>
    rcases step_engine_cases hstep with ⟨hdue, _⟩ | ⟨hcompletes, _⟩ | ⟨i, hissues⟩ | hsame
    · exact .inr (.inl hdue)
    · exact .inl hcompletes
    · exact .inr (.inr (hissues.issuesOneOf (hissues.clipCount_changed hne)))
    · exact absurd hsame.clipCount hne

/-! ### Sample RAM (20_memory.md R71) -/

/-- Result words lie above sample RAM. -/
theorem Memory.readByte_writeWords_rram (m : Memory) (b : Bank) (n : Nat) (ws : List Word) {a : Nat} (ha : a < 0x3000) :
    (m.writeWords (rramAddr b n) ws).readByte a = m.readByte a :=
  Memory.readByte_writeWords_outside ws m _ a (by unfold rramAddr; omega)

theorem CommandEffect.readByte_sample {s t : State} {i : Instr} (heffect : CommandEffect s i t) {a : Nat}
    (ha : a < 0x3000) : t.mem.readByte a = s.mem.readByte a := by
  have hdiscard : s.discardFrame.mem.readByte a = s.mem.readByte a := by
    cases hrun : s.run.state with
    | idle => rw [State.discardFrame_of_idle hrun]
    | busy =>
      rw [State.discardFrame_of_busy hrun]
      exact Memory.readByte_writeWords_rram _ _ _ _ ha
  cases heffect with
  | abort => exact hdiscard
  | softReset => exact hdiscard
  | _ => rfl

/-- Settles O59: every effect but a reset and a sample write stores result words only. -/
theorem sampleRamIsWrittenByTheHostOnly : Obligations.SampleRamIsWrittenByTheHostOnly := by
  intro s t a hstep ha hne
  cases step_next hstep with
  | reset hdue => exact .inl hdue
  | completion hcompletes hfetch => exact absurd (Memory.readByte_writeWords_rram _ _ _ _ ha) hne
  | stages hstages => exact absurd (congrArg (·.readByte a) hstages.mem_eq) hne
  | illegal hwrites hcmd hdecode => exact absurd rfl hne
  | command hwrites hcmd hdecode heffect => exact absurd (heffect.readByte_sample ha) hne
  | @sample o v rest b n hwrites htarget =>
    obtain ⟨hdue, hhost⟩ := hwrites
    refine .inr ⟨o, v, rest, b, n, hdue, hhost, htarget, ?_⟩
    by_contra hout
    rw [State.writeSample_mem] at hne
    exact hne (Memory.readByte_writeWord_outside s.mem v (by omega))
  | result hwrites htarget =>
    rw [State.writeResult_mem] at hne
    exact absurd (Memory.readByte_writeWords_rram s.mem _ _ [_] ha) hne

/-! ### What lies outside the block (log 8, 14) -/

/-- A command leaves the Host, the schedule, the delivered word and the hazard record. -/
theorem CommandEffect.surroundings {s t : State} {i : Instr} (heffect : CommandEffect s i t) :
    t.host = s.host ∧ t.turns = s.turns ∧ t.rdata = s.rdata ∧ t.hazards = s.hazards := by
  have hdiscard : s.discardFrame.host = s.host ∧ s.discardFrame.turns = s.turns ∧ s.discardFrame.rdata = s.rdata ∧
      s.discardFrame.hazards = s.hazards := by simp
  cases heffect with
  | abort => exact hdiscard
  | softReset => exact hdiscard
  | _ => exact ⟨rfl, rfl, rfl, rfl⟩

/-- Settles O53. -/
theorem commandsLeaveTheSurroundings : Obligations.CommandsLeaveTheSurroundings := by
  refine ⟨fun i s => ?_, State.resetInput_eq⟩
  obtain ⟨t, hexec, heffect⟩ := exec_effect i s
  exact ⟨t, hexec, heffect.surroundings⟩

/-! ### Hazards (70_reset_and_hazards.md R270, R271) -/

/-- A step keeps what stands on the hazard record. -/
theorem step_hazards {s t : State} (hstep : step s = .next t) :
    (s.hazards.input = true → t.hazards.input = true) ∧ (s.hazards.output = true → t.hazards.output = true) := by
  cases step_next hstep with
  | reset hdue => exact ⟨id, id⟩
  | completion hcompletes hfetch => exact ⟨id, id⟩
  | stages hstages => rw [hstages.hazards_eq]; exact ⟨id, id⟩
  | illegal hwrites hcmd hdecode => exact ⟨id, id⟩
  | command hwrites hcmd hdecode heffect =>
    obtain ⟨_, _, _, hhazards⟩ := heffect.surroundings
    rw [hhazards]
    exact ⟨id, id⟩
  | sample hwrites htarget =>
    rcases State.writeSample_cases _ _ _ _ with ⟨_, hw⟩ | ⟨_, hw⟩ <;> rw [hw]
    · exact ⟨id, id⟩
    · exact ⟨fun _ => rfl, id⟩
  | result hwrites htarget =>
    rcases State.writeResult_cases _ _ _ _ with ⟨_, hw⟩ | ⟨_, hw⟩ <;> rw [hw]
    · exact ⟨id, id⟩
    · exact ⟨id, fun _ => rfl⟩

/-! ### The step of a command (40_commands.md R120) -/

/-- All four byte offsets of a word act on it. -/
theorem target_of_div_eq {a b : Offset} (h : a.toNat / 4 = b.toNat / 4) : target a = target b := by
  obtain ⟨hwa, hlea, hgta⟩ := wordOffset_bounds a
  obtain ⟨hwb, hleb, hgtb⟩ := wordOffset_bounds b
  exact target_congr (by omega)

theorem step_of_host_due {s : State} (hdue : s.dueTurn = .host) :
    step s = State.hostTurn { s with turns := s.turns.tail } := by
  rw [step, State.advance, hdue]
  rfl

theorem step_of_write {s : State} {a : Offset} {v : Word} {rest : List HostOp} (hwrites : HostWrites s a v rest) :
    step s = (s.used rest).busWrite a v := by
  obtain ⟨hdue, hhost⟩ := hwrites
  rw [step_of_host_due hdue, State.hostTurn]
  simp only [hhost]
  rfl

/-- Settles O6: the write reaches `CMD`, whose write is the issue step. -/
theorem stepRunsTheDecodedCommand : Obligations.StepRunsTheDecodedCommand := by
  intro s a w rest i hdue hhost hoffset hdecode _
  have htarget : target a = .reg .cmd := target_of_div_eq (b := 0x14) hoffset
  obtain rfl := encode_of_decode hdecode
  rw [step_of_write ⟨hdue, hhost⟩, State.busWrite, htarget]
  exact State.issue_encode _ i

end Machine
end Sys2Proof
end

section
/-! The commands one by one (40_commands.md R121 to R130, 60_exceptions.md R224): what each leaves in every field. -/
namespace Sys2Proof.Machine

/-- Settles O8. -/
theorem nopLeavesEverything : Obligations.NopLeavesEverything := exec_nop

/-! ### `CONFIGURE` -/

theorem ctrlLog2nReq_toNat (ctrl : BitVec 8) : (ctrlLog2nReq ctrl).toNat = ctrl.toNat % 16 := by
  rw [ctrlLog2nReq, BitVec.extractLsb'_toNat, Nat.shiftRight_zero]

theorem winSelBits_of_winSelOf {bits : BitVec 2} {win : WinSel} (h : winSelOf bits = some win) :
    winSelBits win = bits := by
  cases win <;> revert bits <;> decide

/-- Every selector but 3 names a window. -/
theorem exists_window {ctrl : BitVec 8} (h : ctrl.toNat / 16 % 4 ≠ 3) : ∃ win, winSelOf (ctrlWinsel ctrl) = some win :=
  Option.ne_none_iff_exists'.mp fun hnone =>
    h ((ctrlWinsel_eq_three_iff ctrl).mp ((winSelOf_eq_none_iff _).mp hnone))

/-- Settles O9: the accepted `CONFIGURE` stores `configured`, whose fields are those of `CTRL` and of the clamp. -/
theorem configureAppliesStagedConfiguration : Obligations.ConfigureAppliesStagedConfiguration := by
  intro s hidle hwin
  obtain ⟨win, hsel⟩ := exists_window hwin
  refine ⟨_, exec_configure_of_window hidle hsel, ?log2n, ?sizeAdj, ?winsel, rfl, rfl, rfl, fun _ => rfl⟩
  case log2n => rw [configured_log2n_toNat, ctrlLog2nReq_toNat]
  case sizeAdj => rw [← ctrlLog2nReq_toNat]; rfl
  case winsel => rw [← ctrlWinsel_toNat, ← winSelBits_of_winSelOf hsel]; rfl

/-! ### Commands while a frame runs -/

/-- The commands that a running frame does not turn away and that keep the error record and the flags. -/
theorem exec_keeps_record (s : State) {i : Instr} (hi : i ∈ [Instr.nop, .abort, .clipClr, .clipDec]) :
    ∃ t, exec i s = .next t ∧ t.errCode = s.errCode ∧ t.errCmd = s.errCmd ∧ t.irqStatus = s.irqStatus := by
  simp only [List.mem_cons, List.not_mem_nil, or_false] at hi
  rcases hi with rfl | rfl | rfl | rfl
  · exact ⟨_, exec_nop s, rfl, rfl, rfl⟩
  · exact ⟨_, exec_abort s, s.discardFrame_errCode, s.discardFrame_errCmd, s.discardFrame_irqStatus⟩
  · exact ⟨_, exec_clipClr s, rfl, rfl, rfl⟩
  · exact ⟨_, exec_clipDec s, rfl, rfl, rfl⟩

/-- Settles O11. -/
theorem busyTurnsAwayConfigureAndProcess : Obligations.BusyTurnsAwayConfigureAndProcess := fun s hbusy =>
  ⟨exec_of_needsIdle_of_busy (.inl rfl) hbusy, fun b c => exec_of_needsIdle_of_busy (.inr ⟨b, c, rfl⟩) hbusy,
    fun _ hi => exec_keeps_record s hi, _, exec_softReset s, rfl, rfl, rfl⟩

/-! ### `PROCESS` -/

/-- The numeric value of a word put together from two fields. -/
theorem toNat_append_eq_add {m n : Nat} (x : BitVec m) (y : BitVec n) :
    (x ++ y).toNat = x.toNat * 2 ^ n + y.toNat := by
  rw [BitVec.toNat_append, ← Nat.shiftLeft_add_eq_or_of_lt y.isLt, Nat.shiftLeft_eq]

/-- A field read into a word keeps its value. -/
theorem toNat_setWidth_word {n : Nat} (hn : n ≤ 32) (x : BitVec n) : (x.setWidth 32).toNat = x.toNat :=
  BitVec.toNat_setWidth_of_le hn

@[simp] theorem busyBit_toNat (r : RunState) : (busyBit r).toNat = if r = .busy then 1 else 0 := by cases r <;> rfl

/-- `STATUS` by its fields (10_state.md R28). -/
theorem statusWord_toNat (r : Run) :
    (statusWord r).toNat = (if r.state = .busy then 1 else 0) + 2 * r.inBank.toNat + 4 * r.outBank.toNat := by
  rw [statusWord, toNat_setWidth_word (by decide), toNat_append_eq_add, toNat_append_eq_add, busyBit_toNat]
  omega

/-- Settles O12. -/
theorem processStartsAFrame : Obligations.ProcessStartsAFrame := fun s b c hidle =>
  ⟨_, exec_process_of_idle hidle b c, rfl, statusWord_toNat (s.start b c).run, fun _ => rfl⟩

/-! ### `ABORT`, `CLIP_CLR`, `CLIP_DEC`, `SOFT_RESET` -/

/-- Word `k` of a run of result words reads as stored. -/
theorem Memory.readWord_writeWords_rram (m : Memory) (b : Bank) {ws : List Word} {k : Nat} (hk : k < ws.length) :
    (m.writeWords (rramAddr b 0) ws).readWord (rramAddr b k) = some ws[k] := by
  rw [rramAddr_eq b k]
  exact Memory.readWord_writeWords ws m _ k hk

/-- Each output word of a discarded frame takes a free value. -/
theorem State.discardFrame_readWord {s : State} (hbusy : s.run.state = .busy) {k : Nat}
    (hk : k < 2 ^ s.run.cfg.log2n.toNat) :
    s.discardFrame.mem.readWord (rramAddr s.run.outBank k) = some (Config.drawWord (s.draws + k)) := by
  have hlen : k < (drawnWords s.draws s.frameSize).length := by rwa [drawnWords_length]
  rw [State.discardFrame_of_busy hbusy, Memory.readWord_writeWords_rram _ _ hlen, drawnWords_getElem]

theorem State.discardFrame_sameBytesOutside {s : State} (hbusy : s.run.state = .busy) :
    SameBytesOutside (rramAddr s.run.outBank 0) (4 * 2 ^ s.run.cfg.log2n.toNat) s s.discardFrame := by
  intro a ha
  rw [State.discardFrame_of_busy hbusy]
  exact Memory.readByte_writeWords_outside _ _ _ _ (by rwa [drawnWords_length])

/-- Settles O13. -/
theorem abortDiscardsTheRunningFrame : Obligations.AbortDiscardsTheRunningFrame := by
  intro s
  refine ⟨fun hbusy => ⟨_, exec_abort s, fun k => State.discardFrame_readWord hbusy,
    State.discardFrame_sameBytesOutside hbusy, ?_⟩, fun hidle => ?_⟩
  · rw [State.discardFrame_of_busy hbusy]
    rfl
  · rw [exec_abort, State.discardFrame_of_idle hidle]

theorem clipDec_toNat (c : Half) : (if c = 0 then 0 else c - 1).toNat = c.toNat - 1 := by
  split
  case isTrue h => rw [h]; rfl
  case isFalse h => bv_omega

/-- Settles O14. -/
theorem clipCommandsLowerTheCounter : Obligations.ClipCommandsLowerTheCounter := fun s =>
  ⟨exec_clipClr s, _, exec_clipDec s, clipDec_toNat s.clipCount, rfl, fun _ => rfl⟩

end Sys2Proof.Machine
end

section
/-! The bus (20_memory.md R60 to R74): where each word lies, what a read there answers and what a write there does. -/
namespace Sys2Proof.Machine

/-! ### The address map -/

theorem target_regOffset (r : Reg) : target (BitVec.ofNat 16 (regOffset r)) = .reg r := by
  have hlt := regOffset_lt r
  have haligned : regOffset r % 4 = 0 := by cases r <;> rfl
  simp only [target, wordOffset_ofNat (hlt.trans (by decide)) haligned, regAt_regOffset, hlt, if_true]

/-- The address map undoes `rramAddr`. -/
theorem target_rramAddr (b : Bank) {n : Nat} (hn : n < 1024) : target (BitVec.ofNat 16 (rramAddr b n)) = .rram b n := by
  obtain ⟨hlo, hhi⟩ := rramAddr_bounds b hn
  have hoffset : wordOffset (BitVec.ofNat 16 (rramAddr b n)) = rramAddr b n :=
    wordOffset_ofNat (by omega) (by unfold rramAddr; omega)
  have hbank : (rramAddr b n - 0x3000) / 0x1000 = b.toNat := by unfold rramAddr; omega
  have hindex : rramAddr b n / 4 % 1024 = n := by unfold rramAddr; omega
  simp only [target, hoffset, hbank, hindex, BitVec.ofNat_toNat, BitVec.setWidth_eq]
  rw [if_neg (by omega), if_neg (by omega), if_pos (by omega)]

theorem apertureOffset_eq_some_iff_baseAddr (addr : Nat) (a : Offset) :
    apertureOffset addr = some a ↔ addr = Config.baseAddr + a.toNat := by
  refine (apertureOffset_eq_some_iff addr a).trans ?_
  have ha : a.toNat < 0x10000 := a.isLt
  have hbase : Config.baseAddr = Config.basePage * 0x10000 := rfl
  omega

/-- Settles O21: the two RAM regions are the banks' addresses, two banks each. -/
theorem addressMapPlacesEveryWord : Obligations.AddressMapPlacesEveryWord := by
  refine ⟨fun b n hn => ⟨?sample, ?result⟩, target_regOffset, apertureOffset_eq_some_iff_baseAddr⟩
  case sample =>
    have haddr : 0x1000 + 0x1000 * (2 * 0 + b.toNat) + 4 * n = sramAddr b n := by unfold sramAddr; omega
    rw [haddr, target_sramAddr b hn]
  case result =>
    have haddr : 0x1000 + 0x1000 * (2 * 1 + b.toNat) + 4 * n = rramAddr b n := by unfold rramAddr; omega
    rw [haddr, target_rramAddr b hn]

/-! ### Registers -/

theorem State.busWrite_reg (s : State) (r : Reg) (v : Word) :
    s.busWrite (BitVec.ofNat 16 (regOffset r)) v = s.writeReg r v := by
  rw [State.busWrite, target_regOffset]

theorem State.busRead_reg (s : State) (r : Reg) :
    s.busRead (BitVec.ofNat 16 (regOffset r)) = some (s.readReg r, 0) := by
  rw [State.busRead, State.busReply, target_regOffset]

/-- `ACTIVE_CFG` by its fields (10_state.md R29). -/
theorem activeCfgWord_toNat (c : ActiveCfg) :
    (activeCfgWord c).toNat = c.log2n.toNat + 16 * (winSelBits c.winsel).toNat + 64 * c.lagfix.toNat +
      128 * c.revIq.toNat + 256 * c.sizeAdj.toNat := by
  rw [activeCfgWord, toNat_setWidth_word (by decide)]
  simp only [toNat_append_eq_add, BitVec.toNat_ofBool]
  omega

/-- A write to a read-only register changes nothing (20_memory.md R66). -/
theorem State.writeReg_readOnly (s : State) {r : Reg}
    (hr : r ∈ [Reg.id, .version, .status, .activeCfg, .maxI, .maxQ, .clipCount, .frameCount, .errInfo, .errCmd])
    (v : Word) : s.writeReg r v = .next s := by
  simp only [List.mem_cons, List.not_mem_nil, or_false] at hr
  rcases hr with rfl | rfl | rfl | rfl | rfl | rfl | rfl | rfl | rfl | rfl <;> rfl

/-- Settles O23: each register's word is its field, or its fields side by side. -/
theorem readOnlyRegistersIgnoreWrites : Obligations.ReadOnlyRegistersIgnoreWrites := by
  refine ⟨rfl, rfl, rfl, rfl, fun s => ?_⟩
  have field {n : Nat} (hn : n ≤ 32) (x : BitVec n) := toNat_setWidth_word hn x
  exact ⟨s.busWrite_reg, fun r hr v => (s.busWrite_reg r v).trans (s.writeReg_readOnly hr v), s.busRead_reg,
    rfl, rfl, rfl, field (by decide) _, field (by decide) _, field (by decide) _, statusWord_toNat _,
    activeCfgWord_toNat _, field (by decide) _, field (by decide) _, field (by decide) _, field (by decide) _,
    field (by decide) _, rfl, field (by decide) _, rfl⟩

/-- The low bits of a word, with 0 above. -/
theorem setWidth_extractLsb'_zero (v : Word) {k : Nat} (hk : k ≤ 32) :
    (v.extractLsb' 0 k).setWidth 32 = v &&& BitVec.ofNat 32 (2 ^ k - 1) := by
  have hmask : 2 ^ k - 1 < 2 ^ 32 :=
    (Nat.sub_lt (Nat.two_pow_pos k) Nat.one_pos).trans_le (Nat.pow_le_pow_right Nat.two_pos hk)
  apply BitVec.eq_of_toNat_eq
  rw [toNat_setWidth_word hk, BitVec.extractLsb'_toNat, BitVec.toNat_and, BitVec.toNat_ofNat, Nat.mod_eq_of_lt hmask,
    Nat.and_two_pow_sub_one_eq_mod, Nat.shiftRight_zero]

/-- Settles O24: the write stores the low bits, and the read returns the register's field. -/
theorem writableRegistersStoreTheirFields : Obligations.WritableRegistersStoreTheirFields := by
  have readsBack (t : State) (r : Reg) {w : Word} (h : t.readReg r = w) :
      t.busRead (BitVec.ofNat 16 (regOffset r)) = some (w, 0) := h ▸ t.busRead_reg r
  intro s v
  exact ⟨⟨_, s.busWrite_reg .ctrl v, readsBack _ .ctrl (setWidth_extractLsb'_zero v (k := 8) (by decide)), rfl⟩,
    ⟨_, s.busWrite_reg .dispWidth v, readsBack _ .dispWidth (setWidth_extractLsb'_zero v (k := 16) (by decide)), rfl⟩,
    ⟨_, s.busWrite_reg .clipThresh v, readsBack _ .clipThresh (setWidth_extractLsb'_zero v (k := 16) (by decide)), rfl⟩,
    ⟨_, s.busWrite_reg .irqEnable v, readsBack _ .irqEnable (setWidth_extractLsb'_zero v (k := 3) (by decide)), rfl⟩⟩

theorem ackFlags_getLsbD (flags : BitVec 3) (w : Word) {i : Nat} (hi : i < 3) :
    (ackFlags flags w).getLsbD i = (flags.getLsbD i && !w.getLsbD i) := by
  simp [ackFlags, hi]

/-- Settles O25. -/
theorem irqStatusWriteClearsOnes : Obligations.IrqStatusWriteClearsOnes := fun s w =>
  ⟨_, s.busWrite_reg .irqStatus w, fun _ hi => ackFlags_getLsbD s.irqStatus w hi, rfl⟩

/-- Settles O15: the discarded frame, then the registers at reset. -/
theorem softResetRestoresRegistersKeepsRam : Obligations.SoftResetRestoresRegistersKeepsRam := by
  intro s
  refine ⟨_, (s.busWrite_reg .cmd _).trans (s.issue_encode .softReset), exec_softReset s, rfl,
    fun hidle => ?_, fun hbusy => ⟨fun k => State.discardFrame_readWord hbusy,
      State.discardFrame_sameBytesOutside hbusy⟩⟩
  rw [State.discardFrame_of_idle hidle]
  exact ⟨fun _ => rfl, rfl⟩

/-! ### RAM words -/

/-- A written result word that no running frame owns reads as stored. -/
theorem State.busRead_result {s : State} {b : Bank} {n : Nat} (hn : n < 1024) (hfree : s.frameWrites b n = false)
    {w : Word} (hw : s.mem.readWord (rramAddr b n) = some w) :
    s.busRead (BitVec.ofNat 16 (rramAddr b n)) = some (w, 0) := by
  simp [State.busRead, State.busReply, target_rramAddr b hn, hfree, hw, replyOf]

/-- An output word of the running frame answers a free value. -/
theorem State.busRead_output {s : State} {b : Bank} {n : Nat} (hn : n < 1024) (howned : s.frameWrites b n = true) :
    s.busRead (BitVec.ofNat 16 (rramAddr b n)) = some (Config.drawWord s.draws, 1) := by
  simp [State.busRead, State.busReply, target_rramAddr b hn, howned]

theorem State.busWrite_sample (s : State) (b : Bank) {n : Nat} (hn : n < 1024) (v : Word) :
    s.busWrite (BitVec.ofNat 16 (sramAddr b n)) v = .next (s.writeSample b n v) := by
  rw [State.busWrite, target_sramAddr b hn]

theorem State.busWrite_result (s : State) (b : Bank) {n : Nat} (hn : n < 1024) (v : Word) :
    s.busWrite (BitVec.ofNat 16 (rramAddr b n)) v = .next (s.writeResult b n v) := by
  rw [State.busWrite, target_rramAddr b hn]

theorem State.frameWrites_eq_false_iff (s : State) (b : Bank) (n : Nat) :
    s.frameWrites b n = false ↔ s.run.state = .idle ∨ b ≠ s.run.outBank ∨ 2 ^ s.run.cfg.log2n.toNat ≤ n := by
  rw [← Bool.not_eq_true, State.frameWrites_iff]
  cases s.run.state <;> simp [imp_iff_not_or]

/-- Settles O19: a written sample word reads back in every state, a result word where the frame does not own it. -/
theorem ramWordReadsBackAsWritten : Obligations.RamWordReadsBackAsWritten := by
  intro s b n v hn
  refine ⟨⟨_, s.busWrite_sample b hn v, State.busRead_sample hn ?_, fun a ha => ?_, ?_⟩, fun hfree => ?result⟩
  · rw [State.writeSample_mem, Memory.readWord_writeWord_self]
  · rw [State.writeSample_mem]; exact Memory.readByte_writeWord_outside _ _ ha
  · rcases s.writeSample_cases b n v with ⟨_, hw⟩ | ⟨_, hw⟩ <;> rw [hw]
  case result =>
    rw [← State.frameWrites_eq_false_iff] at hfree
    have hwrite : s.writeResult b n v = { s with mem := s.mem.writeWord (rramAddr b n) v } :=
      ((s.writeResult_cases b n v).resolve_right fun howned => by simp [hfree] at howned).2
    refine ⟨_, (s.busWrite_result b hn v).trans (congrArg _ hwrite), ?_, fun a ha => ?_, rfl⟩
    · exact State.busRead_result (s := { s with mem := s.mem.writeWord (rramAddr b n) v }) hn hfree
        (Memory.readWord_writeWord_self _ _ _)
    · exact Memory.readByte_writeWord_outside _ _ ha

/-- Settles O28. -/
theorem earlyOutputReadsAreFree : Obligations.EarlyOutputReadsAreFree := fun s b n hn =>
  ⟨fun hbusy hb hlt => State.busRead_output hn ((s.frameWrites_iff b n).mpr ⟨⟨hbusy, hb⟩, hlt⟩),
    fun _ hfree hw => State.busRead_result hn ((s.frameWrites_eq_false_iff b n).mpr hfree) hw,
    fun _ hw => State.busRead_sample hn hw⟩

/-- Settles O35: the write of an owned word records its hazard, and a step keeps the record. -/
theorem hazardsAreRecordedForGood : Obligations.HazardsAreRecordedForGood := by
  refine ⟨fun s n v hbusy hn hlt => ⟨⟨_, s.busWrite_sample _ hn v, ?_⟩, ⟨_, s.busWrite_result _ hn v, ?_⟩⟩,
    fun s t => step_hazards⟩
  · have hreads := (s.frameReads_iff s.run.inBank n).mpr ⟨⟨hbusy, rfl⟩, hlt⟩
    have hwrite := ((s.writeSample_cases s.run.inBank n v).resolve_left fun hfree => by simp [hreads] at hfree).2
    rw [hwrite]
    exact ⟨rfl, rfl⟩
  · have hwrites := (s.frameWrites_iff s.run.outBank n).mpr ⟨⟨hbusy, rfl⟩, hlt⟩
    have hwrite := ((s.writeResult_cases s.run.outBank n v).resolve_left fun hfree => by simp [hwrites] at hfree).2
    rw [hwrite]
    exact ⟨rfl, List.mem_insert_self⟩

/-! ### Every transaction -/

theorem State.writeReg_completes (s : State) (r : Reg) (v : Word) : ∃ t, s.writeReg r v = .next t := by
  cases r with
  | cmd =>
    rcases s.issue_cases v with ⟨e, _, h⟩ | ⟨i, _, h⟩
    · exact ⟨_, h⟩
    · obtain ⟨t, hexec, _⟩ := exec_effect i s
      exact ⟨t, h.trans hexec⟩
  | _ => exact ⟨_, rfl⟩

theorem State.busWrite_completes (s : State) (a : Offset) (v : Word) : ∃ t, s.busWrite a v = .next t := by
  rcases s.busWrite_cases a v with ⟨r, _, h⟩ | ⟨_, _, _, _, h⟩ | ⟨_, _, _, _, h⟩ | ⟨_, h⟩
  · exact h ▸ s.writeReg_completes r v
  all_goals exact ⟨_, h⟩

theorem replyOf_eq_unwritten {w : Option Word} (h : replyOf w = .unwritten) : w = none := by
  cases w with
  | none => rfl
  | some w => cases h

/-- Only an UNWRITTEN RAM word gives no word. -/
theorem State.busRead_eq_none {s : State} {a : Offset} (h : s.busRead a = none) :
    (∃ b n, target a = .sram b n ∧ s.mem.readWord (sramAddr b n) = none) ∨
    (∃ b n, target a = .rram b n ∧ s.mem.readWord (rramAddr b n) = none) := by
  have hreply : s.busReply a = .unwritten := by
    rcases s.busRead_cases a with ⟨w, _, hw⟩ | ⟨_, hw⟩ | ⟨hreply, _⟩
    · cases h.symm.trans hw
    · cases h.symm.trans hw
    · exact hreply
  rw [State.busReply] at hreply
  cases htarget : target a with
  | reg r => simp [htarget] at hreply
  | reserved => simp [htarget] at hreply
  | sram b n =>
    simp only [htarget] at hreply
    exact .inl ⟨b, n, rfl, replyOf_eq_unwritten hreply⟩
  | rram b n =>
    simp only [htarget] at hreply
    split at hreply
    · cases hreply
    · exact .inr ⟨b, n, rfl, replyOf_eq_unwritten hreply⟩

/-- Settles O17. -/
theorem everyTransactionCompletes : Obligations.EveryTransactionCompletes := fun s a =>
  ⟨s.busWrite_completes a, State.busRead_eq_none⟩

/-! ### The Host's reads -/

theorem step_of_hostOp {s : State} {op : HostOp} {rest : List HostOp} (hdue : s.dueTurn = .host)
    (hhost : s.host = op :: rest) : step s = State.hostOp { s with turns := s.turns.tail } op rest := by
  rw [step_of_host_due hdue, State.hostTurn]
  simp only [hhost]

/-- A read by the Host delivers its word. -/
theorem step_of_read {s : State} {a : Offset} {rest : List HostOp} {w : Word} {d : Nat} (hdue : s.dueTurn = .host)
    (hhost : s.host = .read a :: rest) (hread : s.busRead a = some (w, d)) :
    step s = .next ((s.used rest).deliver w d) := by
  have hread' : State.busRead { s with turns := s.turns.tail } a = some (w, d) := hread
  rw [step_of_hostOp hdue hhost, State.hostOp, hread']
  rfl

theorem step_of_unwritten_read {s : State} {a : Offset} {rest : List HostOp} (hdue : s.dueTurn = .host)
    (hhost : s.host = .read a :: rest) (hread : s.busRead a = none) : step s = .fault .unwrittenRead := by
  have hread' : State.busRead { s with turns := s.turns.tail } a = none := hread
  rw [step_of_hostOp hdue hhost, State.hostOp, hread']

/-- Settles O18. -/
theorem readsHaveNoSideEffect : Obligations.ReadsHaveNoSideEffect := fun _ _ _ _ _ => step_of_read

theorem State.busRead_unwritten_sample {s : State} {a : Offset} {b : Bank} {n : Nat} (htarget : target a = .sram b n)
    (hw : s.mem.readWord (sramAddr b n) = none) : s.busRead a = none := by
  simp [State.busRead, State.busReply, htarget, hw, replyOf]

theorem State.busRead_unwritten_result {s : State} {a : Offset} {b : Bank} {n : Nat} (htarget : target a = .rram b n)
    (hfree : s.frameWrites b n = false) (hw : s.mem.readWord (rramAddr b n) = none) : s.busRead a = none := by
  simp [State.busRead, State.busReply, htarget, hfree, hw, replyOf]

/-- Settles O27. -/
theorem unwrittenReadFaults : Obligations.UnwrittenReadFaults :=
  ⟨fun _ _ _ _ _ hdue hhost htarget hw => step_of_unwritten_read hdue hhost (State.busRead_unwritten_sample htarget hw),
    fun _ _ _ _ _ hdue hhost htarget hfree hw =>
      step_of_unwritten_read hdue hhost (State.busRead_unwritten_result htarget hfree hw),
    fun _ => rfl⟩

end Sys2Proof.Machine
end

section
/-! The completion of a frame (40_commands.md R125), with and without a hazard (70_reset_and_hazards.md R270, R271): what it
leaves in the result words, the statistics and the flags. -/
namespace Sys2Proof.Machine

/-! ### The fetch -/

/-- Written sample words are fetched in order. -/
theorem fetchWords_of_written {m : Memory} {b : Bank} {N : Nat} {f : Nat → Word}
    (h : ∀ n, n < N → m.readWord (sramAddr b n) = some (f n)) : fetchWords m b N = some ((List.range N).map f) := by
  refine (Memory.readWords_eq_some N m _ _).mpr ⟨by simp, fun k hk => ?_⟩
  rw [List.length_map, List.length_range] at hk
  rw [← sramAddr_eq, h k hk, List.getElem_map, List.getElem_range]

/-- One UNWRITTEN word stops the fetch. -/
theorem fetchWords_of_unwritten {m : Memory} {b : Bank} {n N : Nat} (hn : n < N)
    (h : m.readWord (sramAddr b n) = none) : fetchWords m b N = none :=
  (Memory.readWords_eq_none N m _).mpr ⟨n, hn, by rwa [← sramAddr_eq]⟩

theorem State.engineTurn_of_idle {s : State} (hidle : s.run.state = .idle) : s.engineTurn = .next s := by
  rw [State.engineTurn, hidle]

theorem State.engineTurn_of_busy {s : State} (hbusy : s.run.state = .busy) : s.engineTurn = s.complete := by
  rw [State.engineTurn, hbusy]

/-- Settles O30. -/
theorem completionNeedsWrittenSamples : Obligations.CompletionNeedsWrittenSamples := by
  refine fun s => ⟨fun n hbusy hn hw => ?_, State.engineTurn_of_idle⟩
  rw [State.engineTurn_of_busy hbusy]
  rcases s.complete_cases with ⟨hfault, _⟩ | ⟨ws, hfetch, _⟩
  · exact hfault
  · cases (fetchWords_of_unwritten hn hw).symm.trans hfetch

/-- Settles O33: the completion reads none of the four registers and writes none of them. -/
theorem laterRegisterWritesMissTheFrame : Obligations.LaterRegisterWritesMissTheFrame := by
  intro s t u v r hr hbusy hturn hwrite
  obtain ⟨ws, hfetch, rfl⟩ := (State.engineTurn_busy_iff hbusy t).mp hturn
  simp only [List.mem_cons, List.not_mem_nil, or_false] at hr
  rcases hr with rfl | rfl | rfl | rfl <;> cases hwrite <;>
    exact ⟨_, (State.engineTurn_busy_iff (by exact hbusy) _).mpr ⟨ws, hfetch, rfl⟩, rfl⟩

/-! ### What a frame commits -/

/-- The result of the running frame for the sample words `f`, open values included. -/
def State.settled (s : State) (f : Nat → Word) : FrameResult :=
  settle s.frameHazard s.draws (processFrame s.run.cfg s.run.thresh ((List.range (2 ^ s.run.cfg.log2n.toNat)).map f))

/-- The samples of the running frame. -/
def State.frameChannels (s : State) (f : Nat → Word) : Channels :=
  fetchChannels ((List.range (2 ^ s.run.cfg.log2n.toNat)).map f)

theorem State.engineTurn_of_written {s : State} {f : Nat → Word} (hbusy : s.run.state = .busy)
    (hw : ∀ n, n < 2 ^ s.run.cfg.log2n.toNat → s.mem.readWord (sramAddr s.run.inBank n) = some (f n)) :
    s.engineTurn = .next (s.commitFrame (s.settled f)) :=
  (State.engineTurn_busy_iff hbusy _).mpr ⟨_, fetchWords_of_written hw, rfl⟩

theorem State.settled_words_length (s : State) (f : Nat → Word) :
    (s.settled f).words.length = 2 ^ s.run.cfg.log2n.toNat := settle_processFrame_words_length _ _ _ _ _

/-- Result word `k`: a draw where a hazard left it open, else the dB value of bin `k`. -/
theorem State.commitFrame_settled_readWord (s : State) (f : Nat → Word) {k : Nat}
    (hk : k < 2 ^ s.run.cfg.log2n.toNat) :
    (s.commitFrame (s.settled f)).mem.readWord (rramAddr s.run.outBank k) =
      some (if s.frameHazard.input || s.frameHazard.output.contains k then Config.drawWord (s.draws + k)
        else trunc32 ((frameDb s.run.cfg (s.frameChannels f)).getD k 0)) := by
  have hlen : k < (s.settled f).words.length := by rwa [s.settled_words_length]
  have hdb : k < (frameDb s.run.cfg (s.frameChannels f)).length := by rwa [frameDb_length]
  rw [s.commitFrame_readWord _ hlen, List.getD_eq_getElem _ _ hdb, Option.some.injEq]
  simp only [State.settled, settle]
  rw [settleWords_getElem _ _ _ _ _ _ (by rwa [processFrame_words_length])]
  simp only [processFrame_words, List.getElem_map, Nat.zero_add, State.frameChannels]

theorem State.commitFrame_sameBytesOutside (s : State) (r : FrameResult) :
    SameBytesOutside (rramAddr s.run.outBank 0) (4 * r.words.length) s (s.commitFrame r) := fun a ha =>
  Memory.readByte_writeWords_outside r.words s.mem _ a ha

theorem settle_max_of_input {hz : FrameHazard} (h : hz.input = true) (d : Nat) (r : FrameResult) :
    (settle hz d r).maxI.toNat = (Config.drawMax d).val ∧
    (settle hz d r).maxQ.toNat = (Config.drawMax (d + 1)).val := by
  have hdraw (x : Fin 32769) : (BitVec.ofNat 16 x.val).toNat = x.val :=
    (BitVec.toNat_ofNat _ _).trans (Nat.mod_eq_of_lt (x.isLt.trans (by decide)))
  simp [settle, h, hdraw]

theorem settle_of_no_input {hz : FrameHazard} (h : hz.input = false) (d : Nat) (r : FrameResult) :
    (settle hz d r).maxI = r.maxI ∧ (settle hz d r).maxQ = r.maxQ ∧ (settle hz d r).clipped = r.clipped := by
  simp [settle, h]

/-- The clip outcome of a frame: free after an input hazard, else that of its raw maxima. -/
def State.Clips (s : State) (f : Nat → Word) : Prop :=
  (s.frameHazard.input = true ∧ Config.drawClip s.draws = true) ∨
  (s.frameHazard.input = false ∧ (s.run.thresh.toNat < maxAbs (s.frameChannels f).i ∨
    s.run.thresh.toNat < maxAbs (s.frameChannels f).q))

theorem State.settled_clipped_iff (s : State) (f : Nat → Word) : (s.settled f).clipped = true ↔ s.Clips f := by
  unfold State.Clips
  cases hin : s.frameHazard.input with
  | true => simp [State.settled, settle, hin]
  | false =>
    rw [State.settled, (settle_of_no_input hin _ _).2.2, processFrame_clipped_iff_raw]
    simp [State.frameChannels]

/-- The clip counter after a frame (41_frontend.md R164). -/
theorem countClip_cases (c : Half) {clipped : Bool} {P : Prop} (h : clipped = true ↔ P) :
    (P → (countClip c clipped).toNat = min (c.toNat + 1) 65535) ∧ (¬P → countClip c clipped = c) := by
  cases clipped with
  | true => exact ⟨fun _ => countClip_true_toNat c, fun hP => absurd (h.mp rfl) hP⟩
  | false => exact ⟨fun hP => (nomatch h.mpr hP), fun _ => countClip_false c⟩

/-- Free values are used exactly when a hazard happened. -/
theorem settleDraws_eq (hz : FrameHazard) (n : Nat) : settleDraws hz n = if hz = FrameHazard.clear then 0 else n := by
  obtain ⟨input, output⟩ := hz
  cases input <;> cases output <;> simp [settleDraws, FrameHazard.clear]

/-- Settles O36: the committed result is `State.settled`, field by field. -/
theorem hazardLeavesFreeValues : Obligations.HazardLeavesFreeValues := by
  intro s f hbusy hw
  obtain ⟨hdone, herr, hclip⟩ := completionFlags_bits s.irqStatus (s.settled f).clipped
  obtain ⟨hcounts, hkeeps⟩ := countClip_cases s.clipCount (s.settled_clipped_iff f)
  refine ⟨_, State.engineTurn_of_written hbusy hw, fun k hk hopen => ?free, fun k hk hin hout => ?frame, ?outside,
    fun hin => settle_max_of_input hin _ _, fun hin => ?maxima, hcounts, hkeeps, hdone, herr,
    hclip.trans (or_congr_right (s.settled_clipped_iff f)), ?rest⟩
  case free =>
    rw [s.commitFrame_settled_readWord f hk, if_pos (by simpa using hopen)]
  case frame =>
    rw [s.commitFrame_settled_readWord f hk, if_neg (by simp [hin, hout])]
    rfl
  case outside => exact s.settled_words_length f ▸ s.commitFrame_sameBytesOutside (s.settled f)
  case maxima =>
    obtain ⟨hmaxI, hmaxQ, _⟩ := settle_of_no_input hin s.draws (processFrame s.run.cfg s.run.thresh _)
    obtain ⟨hi, hq⟩ := processFrame_max_toNat s.run.cfg s.run.thresh ((List.range (2 ^ s.run.cfg.log2n.toNat)).map f)
    exact ⟨(congrArg _ hmaxI).trans hi, (congrArg _ hmaxQ).trans hq⟩
  case rest => rw [← settleDraws_eq]; rfl

/-- Sample `n` of a frame is the two signed halves of word `n` (20_memory.md R70). -/
theorem fetchChannels_getD (f : Nat → Word) {n N : Nat} (hn : n < N) :
    (fetchChannels ((List.range N).map f)).i.getD n 0 = ((f n).extractLsb' 0 16).toInt ∧
    (fetchChannels ((List.range N).map f)).q.getD n 0 = ((f n).extractLsb' 16 16).toInt := by
  have hword (g : Word → Int) : (((List.range N).map f).map g).getD n 0 = g (f n) := by
    rw [List.getD_eq_getElem _ _ (by simpa using hn)]
    simp
  exact ⟨hword sampleI, hword sampleQ⟩

/-- Settles O29: a completion after which no value is open. -/
theorem completionCommitsTheFrame : Obligations.CompletionCommitsTheFrame := by
  intro s f hbusy hclear hw
  have hinput : s.frameHazard.input = false := by rw [hclear]; rfl
  have houtput (k : Nat) : k ∉ s.frameHazard.output := by rw [hclear]; exact List.not_mem_nil
  obtain ⟨t, hturn, _, hwords, hbytes, _, hmax, hcounts, hkeeps, hdone, herr, hclip, ht⟩ :=
    hazardLeavesFreeValues s f hbusy hw
  simp only [hinput, Bool.false_eq_true, false_and, true_and, false_or] at hcounts hkeeps hclip
  obtain ⟨hmaxI, hmaxQ⟩ := hmax hinput
  rw [hclear, if_pos rfl, Nat.add_zero, ← hclear] at ht
  exact ⟨by simp [fetchChannels], by simp [fetchChannels], fun n => fetchChannels_getD f, t, hturn,
    fun k hk => hwords k hk hinput (houtput k), hbytes, hmaxI, hmaxQ, hcounts, hkeeps, hdone, herr, hclip, ht⟩

end Sys2Proof.Machine
end

section
/-! Rounding (00_scope.md R9), the cosine of the full circle (20_memory.md R82), the window (41_frontend.md R168, R169) and
the channel maximum (R162). -/
namespace Sys2Proof.Machine

/-! ### Rounding -/

/-- Settles O37: `rnd` is a floor, and a floor is fixed by the two bounds around it. -/
theorem roundingIsToNearestTiesUp : Obligations.RoundingIsToNearestTiesUp := by
  intro v r s hs
  have hpow : (2 : Int) ^ s = 2 * 2 ^ (s - 1) := by rw [← Int.pow_succ', Nat.sub_add_cancel hs]
  have hpos : (0 : Int) < 2 ^ s := by positivity
  have hfloor : rnd v s = r ↔ r * 2 ^ s ≤ v + 2 ^ (s - 1) ∧ v + 2 ^ (s - 1) < (r + 1) * 2 ^ s := by
    rw [rnd, ← Int.le_ediv_iff_mul_le hpos, ← Int.ediv_lt_iff_lt_mul hpos, Int.lt_add_one_iff, le_antisymm_iff,
      and_comm]
  rw [hfloor, hpow]
  constructor
  · rintro ⟨hlo, hhi⟩
    constructor <;> linarith
  · rintro ⟨hlo, hhi⟩
    constructor <;> linarith

/-- Rounding is exact on multiples. -/
@[simp] theorem rnd_mul_two_pow (r : Int) {s : Nat} (hs : 1 ≤ s) : rnd (r * 2 ^ s) s = r :=
  (roundingIsToNearestTiesUp _ _ s hs).mpr (by
    have hpos : (0 : Int) < 2 ^ (s - 1) := by positivity
    constructor <;> linarith)

/-- Rounding keeps whole bounds. -/
theorem rnd_bounds {v lo hi : Int} {s : Nat} (hs : 1 ≤ s) (hlo : lo * 2 ^ s ≤ v) (hhi : v ≤ hi * 2 ^ s) :
    lo ≤ rnd v s ∧ rnd v s ≤ hi :=
  ⟨rnd_mul_two_pow lo hs ▸ rnd_mono hlo s, rnd_mul_two_pow hi hs ▸ rnd_mono hhi s⟩

/-! ### The cosine ROM -/

theorem cosRows_entry_le : ∀ row ∈ cosRows, ∀ x ∈ row, x ≤ 32768 := by decide

theorem cosq_le (q : Nat) : cosq q ≤ 32768 :=
  have hrow : ∀ x ∈ cosRows.getD (q / 8) [], x ≤ 32768 :=
    forall_mem_getD (P := fun row => ∀ x ∈ row, x ≤ 32768) (List.forall_mem_nil _) cosRows_entry_le _
  forall_mem_getD (P := (· ≤ 32768)) (Nat.zero_le _) hrow _

/-! The four quadrants; each formula holds at both ends of its quadrant, the cosine being 0 at a quarter. -/

theorem cosf_quadrant1 {p : Nat} (h : p ≤ 256) : cosf p = cosq p := if_pos h

theorem cosf_quadrant2 {p : Nat} (hlo : 256 ≤ p) (hhi : p ≤ 512) : cosf p = -(cosq (512 - p) : Int) := by
  rcases hlo.eq_or_lt with rfl | hlt
  · rfl
  · rw [cosf, if_neg (by omega), if_pos hhi]

theorem cosf_quadrant3 {p : Nat} (hlo : 512 ≤ p) (hhi : p ≤ 768) : cosf p = -(cosq (p - 512) : Int) := by
  rcases hlo.eq_or_lt with rfl | hlt
  · rfl
  · rw [cosf, if_neg (by omega), if_neg (by omega), if_pos hhi]

theorem cosf_quadrant4 {p : Nat} (hlo : 768 ≤ p) : cosf p = cosq (1024 - p) := by
  rcases hlo.eq_or_lt with rfl | hlt
  · rfl
  · rw [cosf, if_neg (by omega), if_neg (by omega), if_neg (by omega)]

theorem cosf_bounds (p : Nat) : -32768 ≤ cosf p ∧ cosf p ≤ 32768 := by
  have h1 := cosq_le p
  have h2 := cosq_le (512 - p)
  have h3 := cosq_le (p - 512)
  have h4 := cosq_le (1024 - p)
  unfold cosf
  split_ifs <;> omega

/-- Mirrored at the half circle, quadrant 1 meets 4 and quadrant 2 meets 3. -/
theorem cosf_mirror {p : Nat} (hp : p ≤ 1024) : cosf (1024 - p) = cosf p := by
  have mirror14 {q : Nat} (hq : q ≤ 256) : cosf (1024 - q) = cosf q := by
    rw [cosf_quadrant1 hq, cosf_quadrant4 (by omega), show 1024 - (1024 - q) = q by omega]
  have mirror23 {q : Nat} (hlo : 256 ≤ q) (hhi : q ≤ 512) : cosf (1024 - q) = cosf q := by
    rw [cosf_quadrant2 hlo hhi, cosf_quadrant3 (by omega) (by omega), show 1024 - q - 512 = 512 - q by omega]
  have hback : 1024 - (1024 - p) = p := by omega
  rcases Nat.le_total p 512 with h | h
  · rcases Nat.le_total p 256 with h' | h'
    · exact mirror14 h'
    · exact mirror23 h' h
  · rcases Nat.le_total p 768 with h' | h'
    · rw [← mirror23 (q := 1024 - p) (by omega) (by omega), hback]
    · rw [← mirror14 (q := 1024 - p) (by omega), hback]

/-- Half a circle later, quadrant 1 becomes 3 and quadrant 2 becomes 4. -/
theorem cosf_half {p : Nat} (hp : p ≤ 512) : cosf (p + 512) = -cosf p := by
  rcases Nat.le_total p 256 with h | h
  · rw [cosf_quadrant1 h, cosf_quadrant3 (by omega) (by omega), Nat.add_sub_cancel]
  · rw [cosf_quadrant2 h hp, cosf_quadrant4 (by omega), neg_neg, show 1024 - (p + 512) = 512 - p by omega]

theorem sinf_eq (p : Nat) : sinf p = cosf ((p + 1024 - 256) % 1024) :=
  congrArg (fun q => cosf (q % 1024)) (by omega : p + 768 = p + 1024 - 256)

/-- Settles O38. -/
theorem cosineRomIsSymmetric : Obligations.CosineRomIsSymmetric :=
  ⟨fun p _ => ⟨(cosf_bounds p).1, (cosf_bounds p).2, sinf_eq p⟩, fun _ _ hp => (cosf_mirror hp.le).symm,
    fun _ hp => cosf_half hp.le⟩

/-! ### The window -/

/-- A coefficient of a smaller size is one of the 1024-point window, at its place on the circle. -/
theorem windowCoef_eq_fullCircle (sel : WinSel) (points n : Nat) :
    windowCoef sel points n = windowCoef sel 1024 (n * (1024 / points)) := by
  cases sel <;> simp [windowCoef, Config.circle]

theorem windowCoef_bounds (sel : WinSel) (points n : Nat) :
    0 ≤ windowCoef sel points n ∧ windowCoef sel points n ≤ 32768 := by
  obtain ⟨hlo, hhi⟩ := cosf_bounds (n * (Config.circle / points))
  cases sel with
  | hann => exact rnd_bounds (s := 1) (by decide) (by omega) (by omega)
  | hamming =>
    have hround := rnd_bounds (v := 15073 * cosf (n * (Config.circle / points))) (lo := -15073) (hi := 15073) (s := 15)
      (by decide) (by omega) (by omega)
    simp only [windowCoef]
    omega
  | rectangular => exact ⟨Int.natCast_nonneg 32768, Int.le_refl _⟩

theorem windowCoef_congr (sel : WinSel) {p q : Nat} (h : cosf p = cosf q) :
    windowCoef sel 1024 p = windowCoef sel 1024 q := by
  cases sel <;> simp [windowCoef, Config.circle, h]

/-- The supported sizes divide the circle. -/
theorem size_mul_stride {bits : Nat} (hlo : 6 ≤ bits) (hhi : bits ≤ 10) :
    2 ^ bits * (1024 / 2 ^ bits) = 1024 ∧ 2 ^ bits / 2 * (1024 / 2 ^ bits) = 512 ∧
    2 ^ bits / 4 * (1024 / 2 ^ bits) = 256 := by
  interval_cases bits <;> decide

theorem windowCoef_mirror (sel : WinSel) {points n : Nat} (hsize : points * (1024 / points) = 1024) (hn : n ≤ points) :
    windowCoef sel points n = windowCoef sel points (points - n) := by
  have hle : n * (1024 / points) ≤ 1024 := (Nat.mul_le_mul_right _ hn).trans_eq hsize
  rw [windowCoef_eq_fullCircle sel points n, windowCoef_eq_fullCircle sel points (points - n), Nat.sub_mul, hsize]
  exact windowCoef_congr sel (cosf_mirror hle).symm

/-- Settles O39: every coefficient is one of the full circle, where the quarter points are evaluated. -/
theorem windowCoefficientsAreSymmetric : Obligations.WindowCoefficientsAreSymmetric := by
  intro bits hlo hhi sel
  obtain ⟨hsize, hhalf, hquarter⟩ := size_mul_stride hlo hhi
  refine ⟨fun n _ => windowCoef_bounds sel _ n, fun n _ hn => windowCoef_mirror sel hsize hn.le, ?_⟩
  simp only [windowCoef_eq_fullCircle _ (2 ^ bits), Nat.zero_mul, hhalf, hquarter]
  decide

@[simp] theorem windowFrom_length (sel : WinSel) (points : Nat) (xs : List Int) : ∀ k,
    (windowFrom sel points k xs).length = xs.length := by
  induction xs with
  | nil => intro k; rfl
  | cons x xs ih => intro k; simp [windowFrom, ih]

theorem windowFrom_getD (sel : WinSel) (points : Nat) (xs : List Int) : ∀ k {n : Nat}, n < xs.length →
    (windowFrom sel points k xs).getD n 0 = rnd (xs.getD n 0 * windowCoef sel points (k + n)) 15 := by
  induction xs with
  | nil => intro k n hn; cases hn
  | cons x xs ih =>
    intro k n hn
    cases n with
    | zero => rfl
    | succ n =>
      rw [windowFrom, List.getD_cons_succ, List.getD_cons_succ, ih (k + 1) (Nat.lt_of_succ_lt_succ hn),
        Nat.add_right_comm, Nat.add_assoc]

/-- A coefficient of at most 1.0 keeps a sample in range. -/
theorem SampleRange.windowed {x w : Int} (h : SampleRange x) (hlo : 0 ≤ w) (hhi : w ≤ 32768) :
    SampleRange (rnd (x * w) 15) := by
  obtain ⟨hxlo, hxhi⟩ := h
  exact rnd_bounds (s := 15) (by decide) (by nlinarith) (by nlinarith)

theorem windowFrom_sampleRange (sel : WinSel) (points : Nat) (xs : List Int) : ∀ k, (∀ v ∈ xs, SampleRange v) →
    ∀ v ∈ windowFrom sel points k xs, SampleRange v := by
  induction xs with
  | nil => intro k _; exact List.forall_mem_nil _
  | cons x xs ih =>
    intro k h
    obtain ⟨hx, hxs⟩ := List.forall_mem_cons.mp h
    obtain ⟨hlo, hhi⟩ := windowCoef_bounds sel points k
    exact List.forall_mem_cons.mpr ⟨hx.windowed hlo hhi, ih (k + 1) hxs⟩

/-- The rectangular window multiplies by 1.0. -/
theorem windowFrom_rectangular (points : Nat) (xs : List Int) : ∀ k, windowFrom .rectangular points k xs = xs := by
  induction xs with
  | nil => intro k; rfl
  | cons x xs ih =>
    intro k
    have hone : rnd (x * 32768) 15 = x := rnd_mul_two_pow x (s := 15) (by decide)
    rw [windowFrom, ih, windowCoef, hone]

theorem FrameSamples.applyWindow {N : Nat} {c : Channels} (h : FrameSamples N c) (sel : WinSel) (points : Nat) :
    FrameSamples N (applyWindow c sel points) := by
  obtain ⟨hlenI, hlenQ, hi, hq⟩ := h
  exact ⟨(windowFrom_length _ _ _ _).trans hlenI, (windowFrom_length _ _ _ _).trans hlenQ,
    windowFrom_sampleRange sel points c.i 0 hi, windowFrom_sampleRange sel points c.q 0 hq⟩

/-- Settles O40. -/
theorem windowKeepsSixteenBits : Obligations.WindowKeepsSixteenBits := by
  intro bits _ _ sel c hframe
  refine ⟨hframe.applyWindow sel _, fun n hn => ⟨?i, ?q⟩, ?rectangular⟩
  case i => exact (windowFrom_getD sel _ c.i 0 (hframe.1 ▸ hn)).trans (by rw [Nat.zero_add])
  case q => exact (windowFrom_getD sel _ c.q 0 (hframe.2.1 ▸ hn)).trans (by rw [Nat.zero_add])
  case rectangular => simp only [applyWindow, windowFrom_rectangular]

/-! ### The channel maximum -/

theorem natAbs_le_maxAbs {v : Int} {xs : List Int} (h : v ∈ xs) : v.natAbs ≤ maxAbs xs := by
  induction xs with
  | nil => cases h
  | cons x xs ih =>
    rcases List.mem_cons.mp h with rfl | hv
    · exact Nat.le_max_left _ _
    · exact (ih hv).trans (Nat.le_max_right _ _)

theorem exists_natAbs_eq_maxAbs (x : Int) (xs : List Int) : ∃ v ∈ x :: xs, v.natAbs = maxAbs (x :: xs) := by
  induction xs generalizing x with
  | nil => exact ⟨x, List.mem_cons_self, (Nat.max_zero _).symm⟩
  | cons y ys ih =>
    rcases Nat.le_total x.natAbs (maxAbs (y :: ys)) with hle | hle
    · obtain ⟨v, hv, heq⟩ := ih y
      exact ⟨v, List.mem_cons_of_mem _ hv, heq.trans (Nat.max_eq_right hle).symm⟩
    · exact ⟨x, List.mem_cons_self, (Nat.max_eq_left hle).symm⟩

theorem SampleRange.natAbs_le {v : Int} (h : SampleRange v) : v.natAbs ≤ 32768 := by
  obtain ⟨hlo, hhi⟩ := h
  omega

/-- Settles O42. -/
theorem channelMaxIsTheLargestMagnitude : Obligations.ChannelMaxIsTheLargestMagnitude := by
  refine fun xs => ⟨fun v => natAbs_le_maxAbs, fun hne => ?_, fun h => maxAbs_le fun v hv => (h v hv).natAbs_le⟩
  obtain ⟨x, xs, rfl⟩ := List.exists_cons_of_ne_nil hne
  exact exists_natAbs_eq_maxAbs x xs

end Sys2Proof.Machine
end

section
/-! The stages of the transform (42_fft.md R183 to R185): each value of a stage is a result of one butterfly of two values of
the buffer. -/
namespace Sys2Proof.Machine

/-! ### The unit twiddles -/

theorem twiddle_zero : twiddle 0 = { re := 32768, im := 0 } := rfl

theorem twiddle_quarter : twiddle 256 = { re := 0, im := -32768 } := rfl

theorem cmul_zero (b : Cplx) : cmul b 0 = b := by
  have hone (v : Int) : rnd (v * 32768) 15 = v := rnd_mul_two_pow v (s := 15) (by decide)
  simp [cmul, twiddle_zero, hone]

/-- Settles O45: the products with 0 and with ±1.0 are exact, and rounding keeps them. -/
theorem unitTwiddlesMultiplyExactly : Obligations.UnitTwiddlesMultiplyExactly := by
  refine fun b => ⟨cmul_zero b, ?_⟩
  have hone (v : Int) : rnd (v * 32768) 15 = v := rnd_mul_two_pow v (s := 15) (by decide)
  have hneg (v : Int) : rnd (-(v * 32768)) 15 = -v := by rw [← Int.neg_mul, hone]
  simp [cmul, twiddle_quarter, hone, hneg]

/-! ### One stage, value by value -/

/-- The value 0. -/
def Cplx.zero : Cplx := { re := 0, im := 0 }

theorem butterflies_getD (step : Nat) (as : List Cplx) : ∀ (j : Nat) (bs : List Cplx) {k : Nat}, as.length = bs.length →
    k < as.length →
    (butterflies step j as bs).1.getD k Cplx.zero =
      (butterfly (as.getD k Cplx.zero) (bs.getD k Cplx.zero) ((j + k) * step)).1 ∧
    (butterflies step j as bs).2.getD k Cplx.zero =
      (butterfly (as.getD k Cplx.zero) (bs.getD k Cplx.zero) ((j + k) * step)).2 := by
  induction as with
  | nil => intro j bs k _ hk; cases hk
  | cons a as ih =>
    intro j bs k hlen hk
    cases bs with
    | nil => cases hlen
    | cons b bs =>
      cases k with
      | zero => exact ⟨rfl, rfl⟩
      | succ k =>
        have hrest := ih (j + 1) bs (Nat.succ.inj hlen) (Nat.lt_of_succ_lt_succ hk)
        rwa [Nat.add_assoc, Nat.add_comm 1 k] at hrest

theorem getD_take_of_lt {α : Type} (l : List α) (d : α) {i n : Nat} (h : i < n) : (l.take n).getD i d = l.getD i d := by
  rw [List.getD_eq_getElem?_getD, List.getElem?_take_of_lt h, List.getD_eq_getElem?_getD]

theorem getD_drop {α : Type} (l : List α) (d : α) (i n : Nat) : (l.drop n).getD i d = l.getD (n + i) d := by
  rw [List.getD_eq_getElem?_getD, List.getElem?_drop, List.getD_eq_getElem?_getD]

theorem getD_append_append {α : Type} (l₁ l₂ l₃ : List α) (d : α) {n i : Nat} (h : n = l₁.length + (l₂.length + i)) :
    (l₁ ++ (l₂ ++ l₃)).getD n d = l₃.getD i d := by
  subst h
  rw [List.getD_append_right _ _ _ _ (Nat.le_add_right _ _), Nat.add_sub_cancel_left,
    List.getD_append_right _ _ _ _ (Nat.le_add_right _ _), Nat.add_sub_cancel_left]

/-- The butterfly of the pair at `lo` and `lo + h`, twiddle index `p`. -/
def butterflyAt (buf : List Cplx) (lo h p : Nat) : Cplx × Cplx :=
  butterfly (buf.getD lo Cplx.zero) (buf.getD (lo + h) Cplx.zero) p

theorem butterflyAt_drop (buf : List Cplx) (n lo h p : Nat) :
    butterflyAt (buf.drop n) lo h p = butterflyAt buf (n + lo) h p := by
  rw [butterflyAt, butterflyAt, getD_drop, getD_drop, Nat.add_assoc]

theorem stageGroups_getD (h step groups : Nat) : ∀ (buf : List Cplx) {g j : Nat}, buf.length = groups * (2 * h) →
    g < groups → j < h →
    (stageGroups h step groups buf).getD (g * (2 * h) + j) Cplx.zero =
      (butterflyAt buf (g * (2 * h) + j) h (j * step)).1 ∧
    (stageGroups h step groups buf).getD (g * (2 * h) + j + h) Cplx.zero =
      (butterflyAt buf (g * (2 * h) + j) h (j * step)).2 := by
  induction groups with
  | zero => intro buf g j _ hg; cases hg
  | succ groups ih =>
    intro buf g j hlen hg hj
    rw [Nat.succ_mul] at hlen
    have hlower : (buf.take h).length = h := by rw [List.length_take]; omega
    have hupper : ((buf.drop h).take h).length = h := by rw [List.length_take, List.length_drop]; omega
    have hrest : (buf.drop (2 * h)).length = groups * (2 * h) := by rw [List.length_drop]; omega
    have hsame := hlower.trans hupper.symm
    obtain ⟨hlenLo, hlenHi⟩ := butterflies_length step (buf.take h) 0 ((buf.drop h).take h) hsame
    rw [hlower] at hlenLo hlenHi
    rw [stageGroups, List.append_assoc]
    cases g with
    | zero =>
      obtain ⟨hlo, hhi⟩ := butterflies_getD step (buf.take h) 0 ((buf.drop h).take h) hsame (hlower.symm ▸ hj)
      rw [getD_take_of_lt _ _ hj, getD_take_of_lt _ _ hj, getD_drop, Nat.zero_add, Nat.add_comm h j] at hlo hhi
      rw [Nat.zero_mul, Nat.zero_add]
      constructor
      · rw [List.getD_append _ _ _ _ (by omega), hlo, butterflyAt]
      · rw [List.getD_append_right _ _ _ _ (by omega), hlenLo, Nat.add_sub_cancel,
          List.getD_append _ _ _ _ (by omega), hhi, butterflyAt]
    | succ g =>
      obtain ⟨hlo, hhi⟩ := ih (buf.drop (2 * h)) hrest (Nat.lt_of_succ_lt_succ hg) hj
      have hskip : (g + 1) * (2 * h) + j = 2 * h + (g * (2 * h) + j) := by rw [Nat.succ_mul g (2 * h)]; omega
      rw [butterflyAt_drop, ← hskip] at hlo hhi
      constructor
      · rw [← hlo]
        exact getD_append_append _ _ _ _ (by omega)
      · rw [← hhi]
        exact getD_append_append _ _ _ _ (by omega)

/-- Stage `s` of `bits` in the terms of R185: groups of `2^s`, distance `2^(s-1)`, twiddle stride `2^(10-s)`. -/
theorem stage_getD {bits s : Nat} (hs : 1 ≤ s) (hsb : s ≤ bits) (hbits : bits ≤ 10) {buf : List Cplx}
    (hlen : buf.length = 2 ^ bits) {g j : Nat} (hg : g < 2 ^ (bits - s)) (hj : j < 2 ^ (s - 1)) :
    (stage bits s buf).getD (g * 2 ^ s + j) Cplx.zero =
      (butterflyAt buf (g * 2 ^ s + j) (2 ^ (s - 1)) (j * 2 ^ (10 - s))).1 ∧
    (stage bits s buf).getD (g * 2 ^ s + j + 2 ^ (s - 1)) Cplx.zero =
      (butterflyAt buf (g * 2 ^ s + j) (2 ^ (s - 1)) (j * 2 ^ (10 - s))).2 := by
  have hgroup : 2 * 2 ^ (s - 1) = 2 ^ s := mul_pow_sub_one (by omega) 2
  have hcount : 2 ^ bits = 2 ^ (bits - s) * (2 * 2 ^ (s - 1)) := by rw [hgroup, ← Nat.pow_add, Nat.sub_add_cancel hsb]
  have hstride : Config.circle / 2 ^ s = 2 ^ (10 - s) := Nat.pow_div (x := 2) (m := 10) (hsb.trans hbits) (by decide)
  have hpair := stageGroups_getD (2 ^ (s - 1)) (2 ^ (10 - s)) (2 ^ (bits - s)) buf (hlen.trans hcount) hg hj
  rw [hgroup] at hpair
  rwa [stage, hstride]

/-- Settles O46. -/
theorem stageAppliesEveryButterfly : Obligations.StageAppliesEveryButterfly :=
  fun _ _ _ hs hsb hbits hlen => ⟨stage_length hs hsb hlen, fun _ _ hg hj => stage_getD hs hsb hbits hlen hg hj⟩

/-- Every place of the buffer is the lower or the upper one of a pair. -/
theorem exists_pair {bits s i : Nat} (hs : 1 ≤ s) (hsb : s ≤ bits) (hi : i < 2 ^ bits) :
    ∃ g j, g < 2 ^ (bits - s) ∧ j < 2 ^ (s - 1) ∧ (i = g * 2 ^ s + j ∨ i = g * 2 ^ s + j + 2 ^ (s - 1)) := by
  have hgroup : 2 * 2 ^ (s - 1) = 2 ^ s := mul_pow_sub_one (by omega) 2
  have hg : i / 2 ^ s < 2 ^ (bits - s) :=
    Nat.div_lt_of_lt_mul (by rwa [← Nat.pow_add, Nat.add_sub_cancel' hsb])
  have hsplit := Nat.div_add_mod' i (2 ^ s)
  have hrest := Nat.mod_lt i (Nat.two_pow_pos s)
  by_cases hlower : i % 2 ^ s < 2 ^ (s - 1)
  · exact ⟨_, _, hg, hlower, .inl hsplit.symm⟩
  · exact ⟨_, i % 2 ^ s - 2 ^ (s - 1), hg, by omega, .inr (by omega)⟩

/-- What every butterfly makes of two values with `P`, a whole stage makes of a buffer of such values. -/
theorem forall_mem_stage {P Q : Cplx → Prop} {bits s : Nat} (hs : 1 ≤ s) (hsb : s ≤ bits) (hbits : bits ≤ 10)
    {buf : List Cplx} (hlen : buf.length = 2 ^ bits) (hbuf : ∀ x ∈ buf, P x)
    (hbutterfly : ∀ a b p, P a → P b → p < 512 → Q (butterfly a b p).1 ∧ Q (butterfly a b p).2) :
    ∀ x ∈ stage bits s buf, Q x := by
  intro x hx
  obtain ⟨i, hi, rfl⟩ := List.mem_iff_getElem.mp hx
  rw [← List.getD_eq_getElem _ Cplx.zero hi]
  rw [stage_length hs hsb hlen] at hi
  obtain ⟨g, j, hg, hj, hplace⟩ := exists_pair hs hsb hi
  have hgroup : 2 * 2 ^ (s - 1) = 2 ^ s := mul_pow_sub_one (by omega) 2
  have hend : (g + 1) * 2 ^ s ≤ 2 ^ bits :=
    (Nat.mul_le_mul_right _ hg).trans_eq (by rw [← Nat.pow_add, Nat.sub_add_cancel hsb])
  have hvalue {k : Nat} (hk : k < (g + 1) * 2 ^ s) : P (buf.getD k Cplx.zero) := by
    rw [List.getD_eq_getElem _ _ (by omega)]
    exact hbuf _ (List.getElem_mem _)
  have hindex : j * 2 ^ (10 - s) < 512 :=
    (Nat.mul_lt_mul_of_pos_right hj (Nat.two_pow_pos _)).trans_eq (by
      rw [← Nat.pow_add, show s - 1 + (10 - s) = 9 by omega])
  rw [Nat.succ_mul g (2 ^ s)] at hvalue
  obtain ⟨hfst, hsnd⟩ := hbutterfly _ _ _ (hvalue (k := g * 2 ^ s + j) (by omega))
    (hvalue (k := g * 2 ^ s + j + 2 ^ (s - 1)) (by omega)) hindex
  obtain ⟨hlo, hhi⟩ := stage_getD hs hsb hbits hlen hg hj
  rcases hplace with rfl | rfl
  · exact hlo ▸ hfst
  · exact hhi ▸ hsnd

/-! ### A constant frame -/

theorem rnd_zero_one : rnd 0 1 = 0 := rfl

theorem butterfly_self (a : Cplx) : butterfly a a 0 = (a, Cplx.zero) := by
  have hsum (v : Int) : rnd (v + v) 1 = v := by rw [← mul_two]; exact rnd_mul_two_pow v (s := 1) (by decide)
  simp [butterfly, halfSum, halfDiff, cmul_zero, hsum, rnd_zero_one, Cplx.zero]

theorem butterfly_zero (p : Nat) : butterfly Cplx.zero Cplx.zero p = (Cplx.zero, Cplx.zero) := by
  simp [butterfly, halfSum, halfDiff, cmul, Cplx.zero, rnd]

/-- The butterfly of two equal values, with twiddle 1 or on zeros. -/
theorem butterfly_constant (c : Cplx) (j stride : Nat) {a : Cplx} (ha : a = if j = 0 then c else Cplx.zero) :
    butterfly a a (j * stride) = (a, Cplx.zero) := by
  subst ha
  split
  case isTrue h => rw [h, Nat.zero_mul, butterfly_self]
  case isFalse h => exact butterfly_zero _

/-- After `s` stages on a constant buffer, each group of `2^s` holds the constant in its first place and zeros elsewhere. -/
theorem stages_constant {bits : Nat} (hbits : bits ≤ 10) {c : Cplx} {buf : List Cplx} (hlen : buf.length = 2 ^ bits)
    (hbuf : ∀ i, i < 2 ^ bits → buf.getD i Cplx.zero = c) (s : Nat) (hsb : s ≤ bits) : ∀ i, i < 2 ^ bits →
    (stages bits s buf).getD i Cplx.zero = if i % 2 ^ s = 0 then c else Cplx.zero := by
  induction s with
  | zero => intro i hi; rw [stages, hbuf i hi, Nat.pow_zero, Nat.mod_one, if_pos rfl]
  | succ s ih =>
    intro i hi
    have hs : 1 ≤ s + 1 := Nat.le_add_left 1 s
    obtain ⟨g, j, hg, hj, hplace⟩ := exists_pair hs hsb hi
    obtain ⟨hlo, hhi⟩ := stage_getD hs hsb hbits (stages_length hlen s (Nat.le_of_succ_le hsb)) hg hj
    rw [Nat.add_sub_cancel] at hj hplace hlo hhi
    have hend : (g + 1) * 2 ^ (s + 1) ≤ 2 ^ bits :=
      (Nat.mul_le_mul_right _ hg).trans_eq (by rw [← Nat.pow_add, Nat.sub_add_cancel hsb])
    rw [Nat.succ_mul g] at hend
    have hdouble : 2 ^ (s + 1) = 2 ^ s * 2 := pow_succ 2 s
    have hmod : (g * 2 ^ (s + 1) + j) % 2 ^ s = j ∧ (g * 2 ^ (s + 1) + j + 2 ^ s) % 2 ^ s = j := by
      rw [Nat.add_mod_right, and_self, hdouble, Nat.mul_left_comm, Nat.mul_add_mod, Nat.mod_eq_of_lt hj]
    have hvalue := ih (Nat.le_of_succ_le hsb)
    have hpair := hvalue (g * 2 ^ (s + 1) + j) (by omega)
    have hpair' := hvalue (g * 2 ^ (s + 1) + j + 2 ^ s) (by omega)
    rw [hmod.1] at hpair
    rw [hmod.2, ← hpair] at hpair'
    rw [butterflyAt, hpair', butterfly_constant c j _ hpair] at hlo hhi
    rw [stages]
    rcases hplace with rfl | rfl
    · rw [hlo, hpair, Nat.mul_add_mod' , Nat.mod_eq_of_lt (by omega)]
    · rw [hhi, Nat.add_assoc, Nat.mul_add_mod', Nat.mod_eq_of_lt (by omega), if_neg]
      have hpos := Nat.two_pow_pos s
      omega

/-- Settles O48: after the last stage there is one group, the whole buffer. -/
theorem constantFrameHasOneBin : Obligations.ConstantFrameHasOneBin := by
  intro bits v w _ hbits
  have hload (i : Nat) (hi : i < 2 ^ bits) :
      (loadBuffer bits { i := List.replicate (2 ^ bits) v, q := List.replicate (2 ^ bits) w }).getD i Cplx.zero =
        { re := v * 64, im := w * 64 } := by
    rw [List.getD_eq_getElem _ _ (by rwa [loadBuffer_length])]
    simp [loadBuffer_eq_map_guarded, guarded, bitrev_lt]
  have hbins := stages_constant hbits (loadBuffer_length _ _) hload bits (Nat.le_refl _)
  have hpos := Nat.two_pow_pos bits
  refine List.ext_getElem (by simp; omega) fun i hi _ => ?_
  have hlt : i < 2 ^ bits := hi.trans_eq (fft_length _ _)
  rw [← List.getD_eq_getElem _ Cplx.zero hi, fft, hbins i hlt, Nat.mod_eq_of_lt hlt]
  cases i with
  | zero => rfl
  | succ i => simp [Cplx.zero]

end Sys2Proof.Machine
end

section
/-! The width of the transform (42_fft.md R187): magnitudes as norms of complex numbers. A twiddle lengthens a value by at
most one part in 32768 and each rounding adds less than 1, so a stage adds less than 50 to the largest magnitude. -/
namespace Sys2Proof.Machine

/-- A value of the work buffer as a complex number. -/
noncomputable def Cplx.toComplex (x : Cplx) : ℂ := ⟨x.re, x.im⟩

@[simp] theorem Cplx.toComplex_re (x : Cplx) : x.toComplex.re = x.re := rfl

@[simp] theorem Cplx.toComplex_im (x : Cplx) : x.toComplex.im = x.im := rfl

/-- The squared magnitude of R187. -/
theorem Cplx.norm_toComplex_sq (x : Cplx) : ‖x.toComplex‖ ^ 2 = ((x.re ^ 2 + x.im ^ 2 : Int) : ℝ) := by
  rw [← Complex.normSq_eq_norm_sq, Complex.normSq_apply, Cplx.toComplex_re, Cplx.toComplex_im]
  push_cast
  ring

theorem Cplx.norm_le_of_sq {x : Cplx} {bound : Nat} (h : x.re ^ 2 + x.im ^ 2 ≤ (bound : Int) ^ 2) :
    ‖x.toComplex‖ ≤ bound := by
  refine le_of_sq_le_sq ?_ (Nat.cast_nonneg bound)
  rw [x.norm_toComplex_sq]
  exact_mod_cast h

theorem Cplx.sq_lt_of_norm {x : Cplx} {bound : Nat} (h : ‖x.toComplex‖ < bound) :
    x.re ^ 2 + x.im ^ 2 < (bound : Int) ^ 2 := by
  have hsq : ‖x.toComplex‖ ^ 2 < (bound : ℝ) ^ 2 := by gcongr
  rw [x.norm_toComplex_sq] at hsq
  exact_mod_cast hsq

/-! ### One butterfly -/

/-- Rounding moves a number by at most 1/2. -/
theorem abs_rnd_sub_le (v : Int) {s : Nat} (hs : 1 ≤ s) : |(rnd v s : ℝ) - v / 2 ^ s| ≤ 1 / 2 := by
  obtain ⟨hlo, hhi⟩ := (roundingIsToNearestTiesUp v (rnd v s) s hs).mp rfl
  have hlo' : -(2 ^ (s - 1) : ℝ) ≤ v - rnd v s * 2 ^ s := by exact_mod_cast hlo
  have hhi' : (v - rnd v s * 2 ^ s : ℝ) ≤ 2 ^ (s - 1) := by exact_mod_cast hhi.le
  have hpow : (2 : ℝ) ^ s = 2 * 2 ^ (s - 1) := (mul_pow_sub_one (by omega) 2).symm
  have hpos : (0 : ℝ) < 2 ^ s := by positivity
  have herr : (rnd v s : ℝ) - v / 2 ^ s = -(v - rnd v s * 2 ^ s) / 2 ^ s := by field_simp; ring
  rw [herr, abs_div, abs_neg, abs_of_pos hpos, div_le_iff₀ hpos]
  exact abs_le.mpr ⟨by linarith, by linarith⟩

/-- Both components of a value rounded. -/
def Cplx.rounded (x : Cplx) (s : Nat) : Cplx := { re := rnd x.re s, im := rnd x.im s }

theorem Cplx.norm_rounded_le (x : Cplx) {s : Nat} (hs : 1 ≤ s) :
    ‖(x.rounded s).toComplex‖ ≤ ‖x.toComplex‖ / 2 ^ s + 1 := by
  have hscale : ‖x.toComplex / 2 ^ s‖ = ‖x.toComplex‖ / 2 ^ s := by rw [norm_div, norm_pow, Complex.norm_ofNat]
  have hreal : (2 : ℂ) ^ s = ((2 ^ s : ℝ) : ℂ) := by push_cast; rfl
  have herr : ‖(x.rounded s).toComplex - x.toComplex / 2 ^ s‖ ≤ 1 := by
    refine (Complex.norm_le_abs_re_add_abs_im _).trans ?_
    rw [hreal, Complex.sub_re, Complex.sub_im, Complex.div_ofReal_re, Complex.div_ofReal_im]
    have hre := abs_rnd_sub_le x.re hs
    have him := abs_rnd_sub_le x.im hs
    simp only [Cplx.rounded, Cplx.toComplex_re, Cplx.toComplex_im]
    linarith
  calc ‖(x.rounded s).toComplex‖ ≤ ‖x.toComplex / 2 ^ s‖ + ‖(x.rounded s).toComplex - x.toComplex / 2 ^ s‖ :=
        norm_le_norm_add_norm_sub' _ _
    _ ≤ ‖x.toComplex‖ / 2 ^ s + 1 := by rw [hscale]; gcongr

/-- The product before rounding. -/
def Cplx.product (x y : Cplx) : Cplx := { re := x.re * y.re - x.im * y.im, im := x.re * y.im + x.im * y.re }

theorem Cplx.toComplex_product (x y : Cplx) : (x.product y).toComplex = x.toComplex * y.toComplex := by
  apply Complex.ext <;> simp [Cplx.product, Cplx.toComplex]

theorem cmul_eq_rounded (b : Cplx) (p : Nat) : cmul b p = (b.product (twiddle p)).rounded 15 := rfl

theorem twiddle_sq_le : ∀ p < 512, (twiddle p).re ^ 2 + (twiddle p).im ^ 2 ≤ (32769 : Int) ^ 2 := by decide +kernel

theorem norm_twiddle_le {p : Nat} (hp : p < 512) : ‖(twiddle p).toComplex‖ ≤ 32769 :=
  Cplx.norm_le_of_sq (twiddle_sq_le p hp)

theorem norm_cmul_le (b : Cplx) {p : Nat} (hp : p < 512) :
    ‖(cmul b p).toComplex‖ ≤ ‖b.toComplex‖ * 32769 / 2 ^ 15 + 1 := by
  rw [cmul_eq_rounded]
  refine (Cplx.norm_rounded_le _ (by decide)).trans ?_
  rw [Cplx.toComplex_product, norm_mul]
  gcongr
  exact norm_twiddle_le hp

theorem norm_halfSum_le (a t : Cplx) : ‖(halfSum a t).toComplex‖ ≤ (‖a.toComplex‖ + ‖t.toComplex‖) / 2 + 1 := by
  have hsum : (Cplx.mk (a.re + t.re) (a.im + t.im)).toComplex = a.toComplex + t.toComplex := by
    apply Complex.ext <;> simp [Cplx.toComplex]
  have hround := Cplx.norm_rounded_le (Cplx.mk (a.re + t.re) (a.im + t.im)) (s := 1) (by decide)
  rw [hsum, pow_one] at hround
  refine hround.trans ?_
  gcongr
  exact norm_add_le _ _

theorem norm_halfDiff_le (a t : Cplx) : ‖(halfDiff a t).toComplex‖ ≤ (‖a.toComplex‖ + ‖t.toComplex‖) / 2 + 1 := by
  have hdiff : (Cplx.mk (a.re - t.re) (a.im - t.im)).toComplex = a.toComplex - t.toComplex := by
    apply Complex.ext <;> simp [Cplx.toComplex]
  have hround := Cplx.norm_rounded_le (Cplx.mk (a.re - t.re) (a.im - t.im)) (s := 1) (by decide)
  rw [hdiff, pow_one] at hround
  refine hround.trans ?_
  gcongr
  exact norm_sub_le _ _

/-- The largest magnitude after `s` stages: at most `2^21·√2` after the load, and 50 more with each stage. -/
def stageBound (s : Nat) : Nat := 2965821 + 50 * s

theorem norm_butterfly_le {a b : Cplx} {p s : Nat} (hs : s ≤ 10) (ha : ‖a.toComplex‖ ≤ stageBound s)
    (hb : ‖b.toComplex‖ ≤ stageBound s) (hp : p < 512) :
    ‖(butterfly a b p).1.toComplex‖ ≤ stageBound (s + 1) ∧ ‖(butterfly a b p).2.toComplex‖ ≤ stageBound (s + 1) := by
  have hproduct := norm_cmul_le b hp
  have hgrow : (stageBound (s + 1) : ℝ) = stageBound s + 50 := by simp [stageBound]; ring
  have hmax : (stageBound s : ℝ) ≤ 2966321 := by
    have hs' : (s : ℝ) ≤ 10 := by exact_mod_cast hs
    simp only [stageBound]
    push_cast
    linarith
  have hbound : (‖a.toComplex‖ + ‖(cmul b p).toComplex‖) / 2 + 1 ≤ stageBound (s + 1) := by
    rw [hgrow]
    linarith
  exact ⟨(norm_halfSum_le a _).trans hbound, (norm_halfDiff_le a _).trans hbound⟩

/-! ### All stages -/

theorem norm_loadBuffer_le {bits : Nat} {c : Channels} (h : FrameSamples (2 ^ bits) c) :
    ∀ x ∈ loadBuffer bits c, ‖x.toComplex‖ ≤ stageBound 0 := by
  intro x hx
  obtain ⟨hreLo, hreHi, himLo, himHi⟩ := (loadPlacesSamplesBitReversed bits c h).2.2 x hx
  have hre : x.re ^ 2 ≤ (2 ^ 21) ^ 2 := sq_le_sq' hreLo (hreHi.trans (by decide))
  have him : x.im ^ 2 ≤ (2 ^ 21) ^ 2 := sq_le_sq' himLo (himHi.trans (by decide))
  have hsquare : (2 ^ 21) ^ 2 + (2 ^ 21) ^ 2 ≤ ((stageBound 0 : Nat) : Int) ^ 2 := by decide
  exact Cplx.norm_le_of_sq ((add_le_add hre him).trans hsquare)

theorem norm_stages_le {bits : Nat} {c : Channels} (hbits : bits ≤ 10) (h : FrameSamples (2 ^ bits) c) :
    ∀ s, s ≤ bits → ∀ x ∈ stages bits s (loadBuffer bits c), ‖x.toComplex‖ ≤ stageBound s
  | 0, _ => norm_loadBuffer_le h
  | s + 1, hs =>
    have hs' : s ≤ bits := Nat.le_of_succ_le hs
    forall_mem_stage (Nat.le_add_left 1 s) hs hbits (stages_length (loadBuffer_length bits c) s hs')
      (norm_stages_le hbits h s hs') fun _ _ _ ha hb hp => norm_butterfly_le (hs'.trans hbits) ha hb hp

/-- R187's magnitude bound. -/
theorem stages_sq_lt {bits s : Nat} {c : Channels} (hbits : bits ≤ 10) (h : FrameSamples (2 ^ bits) c) (hs : s ≤ bits)
    {x : Cplx} (hx : x ∈ stages bits s (loadBuffer bits c)) : x.re ^ 2 + x.im ^ 2 < 2967000 ^ 2 := by
  have hbound : stageBound s < 2967000 := by unfold stageBound; omega
  exact Cplx.sq_lt_of_norm (bound := 2967000) ((norm_stages_le hbits h s hs x hx).trans_lt (by exact_mod_cast hbound))

/-- A component is no longer than the value. -/
theorem natAbs_lt_of_sq_lt {v w : Int} (h : v ^ 2 + w ^ 2 < 2967000 ^ 2) : v.natAbs < 2967000 := by
  have hsq : v ^ 2 < 2967000 ^ 2 := lt_of_le_of_lt (le_add_of_nonneg_right (sq_nonneg w)) h
  obtain ⟨hlo, hhi⟩ := abs_lt.mp (abs_lt_of_sq_lt_sq hsq (by decide))
  omega

theorem twiddle_natAbs_le (p : Nat) : (twiddle p).re.natAbs ≤ 32768 ∧ (twiddle p).im.natAbs ≤ 32768 := by
  obtain ⟨hreLo, hreHi⟩ := cosf_bounds p
  obtain ⟨himLo, himHi⟩ := cosf_bounds ((p + 768) % 1024)
  simp only [twiddle, sinf]
  omega

theorem natAbs_mul_lt {v w : Int} (hv : v.natAbs < 2967000) (hw : w.natAbs ≤ 32768) : (v * w).natAbs < 2 ^ 40 := by
  rw [Int.natAbs_mul]
  exact (Nat.mul_le_mul hv.le hw).trans_lt (by decide)

/-- Settles O47: the component and product bounds follow from the magnitude bound. -/
theorem transformStaysInItsWidth : Obligations.TransformStaysInItsWidth := by
  intro bits c _ hbits h s hs x hx
  have hsq := stages_sq_lt hbits h hs hx
  have hre := natAbs_lt_of_sq_lt hsq
  have him := natAbs_lt_of_sq_lt (add_comm (x.re ^ 2) _ ▸ hsq)
  refine ⟨hsq, ⟨by omega, by omega, by omega, by omega⟩, fun p _ => ?_⟩
  obtain ⟨hcos, hsin⟩ := twiddle_natAbs_le p
  exact ⟨natAbs_mul_lt hre hcos, natAbs_mul_lt hre hsin, natAbs_mul_lt him hcos, natAbs_mul_lt him hsin⟩

end Sys2Proof.Machine
end

section
/-! The logarithm of a power (43_logpower.md R203) and the range of a frame's results (R200, R204, R207). -/
namespace Sys2Proof.Machine

/-! ### The logarithm -/

theorem log2_eq_of_bounds {pf e : Nat} (hlo : 2 ^ e ≤ pf) (hhi : pf < 2 ^ (e + 1)) : Nat.log2 pf = e :=
  (Nat.log2_eq_iff ((Nat.two_pow_pos e).trans_le hlo).ne').mpr ⟨hlo, hhi⟩

/-- The leading 1 and the ten bits below it, as a number from 1024 to 2047. -/
theorem mantissa_bounds {pf e : Nat} (hlo : 2 ^ e ≤ pf) (hhi : pf < 2 ^ (e + 1)) :
    1024 ≤ pf * 1024 / 2 ^ e ∧ pf * 1024 / 2 ^ e < 2048 := by
  have hpos := Nat.two_pow_pos e
  rw [Nat.le_div_iff_mul_le hpos, Nat.div_lt_iff_lt_mul hpos]
  rw [Nat.pow_succ] at hhi
  omega

/-- The model's ROM index, shifted right for a large power and left for a small one, drops the leading 1. -/
theorem log2q_index {pf e : Nat} (hlo : 2 ^ e ≤ pf) (hhi : pf < 2 ^ (e + 1)) :
    (if 10 ≤ e then pf / 2 ^ (e - 10) % 1024 else pf * 2 ^ (10 - e) % 1024) = pf * 1024 / 2 ^ e - 1024 := by
  obtain ⟨hmlo, hmhi⟩ := mantissa_bounds hlo hhi
  have hdrop : pf * 1024 / 2 ^ e % 1024 = pf * 1024 / 2 ^ e - 1024 := by omega
  rw [← hdrop]
  split
  case isTrue h =>
    have hsplit : 2 ^ e = 2 ^ (e - 10) * 1024 := by rw [← Nat.pow_add 2 (e - 10) 10, Nat.sub_add_cancel h]
    rw [hsplit, Nat.mul_div_mul_right _ _ (by decide)]
  case isFalse h =>
    have hsplit : 1024 = 2 ^ (10 - e) * 2 ^ e := by rw [← Nat.pow_add, Nat.sub_add_cancel (by omega)]
    have hshift : pf * 1024 / 2 ^ e = pf * 2 ^ (10 - e) := by
      rw [hsplit, ← Nat.mul_assoc, Nat.mul_div_cancel _ (Nat.two_pow_pos e)]
    rw [hshift]

theorem log2q_eq {pf e : Nat} (hlo : 2 ^ e ≤ pf) (hhi : pf < 2 ^ (e + 1)) :
    log2q pf = e * 65536 + logLut (pf * 1024 / 2 ^ e - 1024) := by
  rw [← log2q_index hlo hhi]
  simp only [log2q, log2_eq_of_bounds hlo hhi]

theorem logLut_zero : logLut 0 = 0 := rfl

theorem log2q_two_pow (e : Nat) : log2q (2 ^ e) = e * 65536 := by
  rw [log2q_eq (Nat.le_refl _) (Nat.pow_lt_pow_succ (by decide)), Nat.mul_div_cancel_left _ (Nat.two_pow_pos e),
    Nat.sub_self, logLut_zero, Nat.add_zero]

/-- Settles O49. -/
theorem logTakesTenMantissaBits : Obligations.LogTakesTenMantissaBits :=
  ⟨fun _ _ => log2q_eq, log2q_two_pow, by decide +kernel⟩

/-! ### The results of a frame -/

theorem FrameSamples.lagfix {N : Nat} {c : Channels} (h : FrameSamples N c) (en : Bool) :
    FrameSamples N (lagfix c en) := by
  obtain ⟨hlenI, hlenQ, hi, hq⟩ := h
  cases en with
  | false => exact ⟨hlenI, hlenQ, hi, hq⟩
  | true =>
    exact ⟨hlenI, (delayOne_perm c.q).length_eq.trans hlenQ, hi, fun v hv => hq v ((delayOne_perm c.q).mem_iff.mp hv)⟩

theorem FrameSamples.revIq {N : Nat} {c : Channels} (h : FrameSamples N c) (en : Bool) :
    FrameSamples N (revIq c en) := by
  obtain ⟨hlenI, hlenQ, hi, hq⟩ := h
  cases en with
  | false => exact ⟨hlenI, hlenQ, hi, hq⟩
  | true => exact ⟨hlenQ, hlenI, hq, hi⟩

/-- The front end gives a frame of 16-bit samples again. -/
theorem FrameSamples.frontEnd {cfg : ActiveCfg} {c : Channels} (h : FrameSamples cfg.points c) :
    FrameSamples (2 ^ cfg.log2n.toNat) (frontEnd cfg c) :=
  ((h.lagfix cfg.lagfix).revIq cfg.revIq).applyWindow cfg.winsel cfg.points

/-- R200: a value in the width of the transform has a power of 44 bits. -/
theorem power_lt {x : Cplx} (h : x.re ^ 2 + x.im ^ 2 < 2967000 ^ 2) : power x < 2 ^ 44 := by
  rw [sq, sq] at h
  unfold power
  omega

theorem trunc32_toInt {d : Int} (hlo : -32367 ≤ d) (hhi : d ≤ 1541) : (trunc32 d).toInt = d := by
  rw [trunc32, BitVec.toInt_ofInt, Int.bmod_eq_of_le (by omega) (by omega)]

/-- Settles O51: the transform's width bounds every power, and the converter's range every dB value. -/
theorem everyFrameGivesInRangeResults : Obligations.EveryFrameGivesInRangeResults := by
  intro cfg c hlegal hframe
  have hpower : ∀ x ∈ fft cfg.log2n.toNat (frontEnd cfg c), power x < 2 ^ 44 := fun x hx =>
    power_lt (stages_sq_lt hlegal.2 hframe.frontEnd (Nat.le_refl _) hx)
  refine ⟨frameDb_length cfg c, hpower, fun d hd => ?_⟩
  rw [frameDb_eq, logPower] at hd
  obtain ⟨x, hx, rfl⟩ := List.mem_map.mp hd
  obtain ⟨hlo, hhi⟩ := converterRangeIsSigned16Bit.1 (power x) (hpower x hx)
  exact ⟨hlo, hhi, trunc32_toInt hlo hhi⟩

end Sys2Proof.Machine
end

section
/-! The wait loops (30_encoding.md R109) under a finite schedule without a reset (70_reset_and_hazards.md R281; log 1, 12,
20): a running frame completes at the Engine's next turn, and the Host's next turn after it ends the loop. -/
namespace Sys2Proof.Machine

/-! ### Runs -/

theorem run_succ {s u : State} (hstep : step s = .next u) (k : Nat) :
    Host.Core.run Sys2Proof.core (k + 1) s = Host.Core.run Sys2Proof.core k u := by
  have hcore : Sys2Proof.core.step s = .next u := hstep
  simp only [Host.Core.run, hcore]

/-- Within `n` steps from `s` the Host has no transaction left, in a state with `P`. -/
def EndsWithin (n : Nat) (s : State) (P : State → Prop) : Prop :=
  ∃ k t, k ≤ n ∧ Host.Core.run Sys2Proof.core k s = .next t ∧ t.host = [] ∧ P t

theorem endsWithin_of_step {s t : State} {P : State → Prop} (hstep : step s = .next t) (hhost : t.host = []) (ht : P t)
    (n : Nat) : EndsWithin (n + 1) s P :=
  ⟨1, t, Nat.le_add_left 1 n, run_succ hstep 0, hhost, ht⟩

theorem EndsWithin.after_step {s u : State} {n : Nat} {P : State → Prop} (h : EndsWithin n u P)
    (hstep : step s = .next u) : EndsWithin (n + 1) s P := by
  obtain ⟨k, t, hk, hrun, hend⟩ := h
  exact ⟨k + 1, t, Nat.succ_le_succ hk, (run_succ hstep k).trans hrun, hend⟩

theorem EndsWithin.mono {s : State} {n m : Nat} {P Q : State → Prop} (h : EndsWithin n s P) (hn : n ≤ m)
    (hPQ : ∀ t, P t → Q t) : EndsWithin m s Q := by
  obtain ⟨k, t, hk, hrun, hhost, ht⟩ := h
  exact ⟨k, t, hk.trans hn, hrun, hhost, hPQ t ht⟩

/-! ### The poll of a register -/

/-- The poll of register `r` until `(r & mask) = val`. -/
def pollReg (r : Reg) (mask val : Word) : HostOp := .poll (BitVec.ofNat 16 (regOffset r)) mask val

/-- One read of a poll; the transaction stays until the value matches. -/
theorem step_of_pollReg {s : State} {r : Reg} {mask val : Word} {rest : List HostOp} (hdue : s.dueTurn = .host)
    (hhost : s.host = pollReg r mask val :: rest) :
    step s = .next ((s.used (pollAgain (s.readReg r) mask val (pollReg r mask val) rest)).deliver (s.readReg r) 0) := by
  have hread : State.busRead { s with turns := s.turns.tail } (BitVec.ofNat 16 (regOffset r)) = some (s.readReg r, 0) :=
    s.busRead_reg r
  rw [step_of_hostOp hdue hhost, pollReg, State.hostOp, hread]
  rfl

/-- The engine is IDLE, `n` frames are counted, and DONE is set. -/
structure FrameDone (n : Word) (s : State) : Prop where
  idle : s.run.state = .idle
  counted : s.frameCount = n
  done : s.irqStatus.getLsbD 0 = true

/-- A frame runs on written samples, and `n` frames are counted. -/
structure FrameRuns (n : Word) (s : State) : Prop where
  busy : s.run.state = .busy
  written : fetchWords s.mem s.run.inBank s.frameSize ≠ none
  counted : s.frameCount = n

/-- An IDLE engine's turn is used up. -/
theorem step_of_engine_idle {s : State} (hdue : s.dueTurn = .engine) (hidle : s.run.state = .idle) :
    step s = .next { s with turns := s.turns.tail } := by
  rw [step_of_engine_due hdue]
  exact State.engineTurn_of_idle (s := { s with turns := s.turns.tail }) hidle

/-- The Engine's turn completes a running frame and leaves the Host's list alone. -/
theorem step_of_engine_busy {s : State} {n : Word} (hdue : s.dueTurn = .engine) (hruns : FrameRuns n s) :
    ∃ t, step s = .next t ∧ t.turns = s.turns.tail ∧ t.host = s.host ∧ FrameDone (n + 1) t := by
  obtain ⟨ws, hfetch⟩ := Option.ne_none_iff_exists'.mp hruns.written
  have hturn := (State.engineTurn_busy_iff (s := { s with turns := s.turns.tail }) hruns.busy _).mpr ⟨ws, hfetch, rfl⟩
  exact ⟨_, (step_of_engine_due hdue).trans hturn, rfl, rfl, rfl, congrArg (· + 1) hruns.counted,
    (completionFlags_bits _ _).1⟩

section Polls
variable {r : Reg} {mask val n : Word} {s : State}

/-- The Host's turn ends a poll that matches. -/
theorem endsWithin_of_match {P : State → Prop} (hdue : s.dueTurn = .host) (hhost : s.host = [pollReg r mask val])
    (hmatch : s.readReg r &&& mask = val) (hP : ∀ host turns rdata, P { s with host, turns, rdata }) (m : Nat) :
    EndsWithin (m + 1) s P :=
  endsWithin_of_step (step_of_pollReg hdue hhost) (if_pos hmatch) (hP _ _ _) m

/-- After the completion, a poll that then matches ends with the Host's first turn. -/
theorem endsWithin_of_frameDone (hmatch : ∀ t, FrameDone n t → t.readReg r &&& mask = val) (hdone : FrameDone n s)
    (hhost : s.host = [pollReg r mask val]) (hturns : ∀ u ∈ s.turns, u ≠ .reset) :
    EndsWithin (s.turns.length + 1) s (FrameDone n) := by
  have hostTurn {s : State} (hdone : FrameDone n s) (hhost : s.host = [pollReg r mask val]) (hdue : s.dueTurn = .host)
      (m : Nat) : EndsWithin (m + 1) s (FrameDone n) :=
    endsWithin_of_match hdue hhost (hmatch s hdone) (fun _ _ _ => { hdone with }) m
  induction hlist : s.turns generalizing s with
  | nil => exact hostTurn hdone hhost (by rw [State.dueTurn, hlist, hdone.idle]) _
  | cons u rest ih =>
    have hdue := State.dueTurn_of_turns hlist
    rw [hlist, List.forall_mem_cons] at hturns
    cases u with
    | host => exact hostTurn hdone hhost hdue _
    | engine =>
      refine (ih (s := { s with turns := s.turns.tail }) { hdone with } hhost ?_ ?_).after_step
        (step_of_engine_idle hdue hdone.idle)
      · simpa [hlist] using hturns.2
      · simp [hlist]
    | reset => exact absurd rfl hturns.1

/-- While the frame runs the poll is repeated, or it matches already; the Engine's next turn completes the frame. -/
theorem endsWithin_of_frameRuns (hmatch : ∀ t, FrameDone (n + 1) t → t.readReg r &&& mask = val) (hruns : FrameRuns n s)
    (hhost : s.host = [pollReg r mask val]) (hturns : ∀ u ∈ s.turns, u ≠ .reset) :
    EndsWithin (s.turns.length + 2) s fun t =>
      FrameDone (n + 1) t ∨ (t.run.state = .busy ∧ t.readReg r &&& mask = val) := by
  have engineTurn {s : State} (hruns : FrameRuns n s) (hhost : s.host = [pollReg r mask val])
      (hturns : ∀ u ∈ s.turns.tail, u ≠ .reset) (hdue : s.dueTurn = .engine) :
      EndsWithin (s.turns.tail.length + 2) s fun t =>
        FrameDone (n + 1) t ∨ (t.run.state = .busy ∧ t.readReg r &&& mask = val) := by
    obtain ⟨t, hstep, hturns', hhost', hdone⟩ := step_of_engine_busy hdue hruns
    have hend := endsWithin_of_frameDone hmatch hdone (hhost'.trans hhost) (hturns' ▸ hturns)
    exact (hend.after_step hstep).mono (by rw [hturns']) fun _ => .inl
  induction hlist : s.turns generalizing s with
  | nil =>
    have hend := engineTurn hruns hhost (by simp [hlist]) (by rw [State.dueTurn, hlist, hruns.busy])
    rwa [hlist] at hend
  | cons u rest ih =>
    have hdue := State.dueTurn_of_turns hlist
    rw [hlist, List.forall_mem_cons] at hturns
    cases u with
    | host =>
      by_cases hnow : s.readReg r &&& mask = val
      · exact endsWithin_of_match hdue hhost hnow (fun _ _ _ => .inr ⟨hruns.busy, hnow⟩) _
      · have hstep := step_of_pollReg hdue hhost
        rw [pollAgain, if_neg hnow] at hstep
        have hlater := ih (s := (s.used [pollReg r mask val]).deliver (s.readReg r) 0) { hruns with } rfl
        refine (hlater ?_ ?_).after_step hstep
        · simpa [State.used, hlist] using hturns.2
        · simp [State.used, hlist]
    | engine =>
      have hend := engineTurn hruns hhost (by simpa [hlist] using hturns.2) hdue
      exact hend.mono (by simp [hlist]) fun _ => id
    | reset => exact absurd rfl hturns.1

end Polls

/-! ### The two loops -/

/-- Masking with 1 keeps the lowest bit. -/
theorem toNat_and_one (w : Word) : (w &&& 1).toNat = w.toNat % 2 := by
  rw [BitVec.toNat_and]
  exact Nat.and_one_is_mod _

/-- `WAITIDLE` matches exactly when the engine is IDLE. -/
theorem waitIdle_matches_iff (s : State) : s.readReg .status &&& 1 = 0 ↔ s.run.state = .idle := by
  have hstatus := statusWord_toNat s.run
  rw [← BitVec.toNat_inj, toNat_and_one, State.readReg, hstatus]
  cases s.run.state <;> simp <;> omega

/-- `WAITDONE` matches exactly when DONE is set. -/
theorem waitDone_matches_iff (s : State) : s.readReg .irqStatus &&& 1 = 1 ↔ s.irqStatus.getLsbD 0 = true := by
  rw [← BitVec.toNat_inj, toNat_and_one, State.readReg, toNat_setWidth_word (by decide), BitVec.getLsbD,
    Nat.testBit_zero, decide_eq_true_iff]
  rfl

/-- Settles O60: either loop ends at the completion or after it, `WAITDONE` also before it when DONE stands already. -/
theorem fairScheduleEndsTheWaitLoops : Obligations.FairScheduleEndsTheWaitLoops := by
  intro s _ hbusy hwritten hturns
  have hruns : FrameRuns s.frameCount s := ⟨hbusy, hwritten, rfl⟩
  refine ⟨fun hhost => ?waitIdle, fun hhost => ?waitDone⟩
  case waitIdle =>
    have hpoll : s.host = [pollReg .status 1 0] := (Option.some.inj hhost).symm
    obtain ⟨k, t, hk, hrun, hempty, hend⟩ :=
      endsWithin_of_frameRuns (fun t hdone => (waitIdle_matches_iff t).mpr hdone.idle) hruns hpoll hturns
    have hdone := hend.resolve_right fun ⟨hbusy, hmatch⟩ =>
      nomatch hbusy.symm.trans ((waitIdle_matches_iff t).mp hmatch)
    exact ⟨k, t, hk, hrun, hempty, hdone.idle, hdone.counted, hdone.done⟩
  case waitDone =>
    have hpoll : s.host = [pollReg .irqStatus 1 1] := (Option.some.inj hhost).symm
    obtain ⟨k, t, hk, hrun, hempty, hend⟩ :=
      endsWithin_of_frameRuns (fun t hdone => (waitDone_matches_iff t).mpr hdone.done) hruns hpoll hturns
    exact ⟨k, t, hk, hrun, hempty, hend.elim FrameDone.done fun ⟨_, hmatch⟩ => (waitDone_matches_iff t).mp hmatch⟩

end Sys2Proof.Machine
end
